-- ==== Sys2Proof/Word.lean ====
section
/-! DEFINITION. Word types (00_scope.md R9) and the two plain containers the parameters and registers use. -/

namespace Sys2Proof

/-- A byte: 8 bits (R9). -/
abbrev Byte := BitVec 8

/-- A word: 16 bits, the source's RegisterValue (R9). -/
abbrev Word := BitVec 16

/-- A long: 32 bits (R9). -/
abbrev Long := BitVec 32

/-- Five like things: the five pairs of `PAIR_LOW`, the five entries of `pend`, the five ranges of `DIAG_RANGE`. -/
structure Five (α : Type) where
  x0 : α
  x1 : α
  x2 : α
  x3 : α
  x4 : α
  deriving DecidableEq, Repr

/-- A register range: start address and number of registers (R8). -/
structure Range where
  start : Word
  count : Word
  deriving DecidableEq, Repr

end Sys2Proof
end

