-- ==== Sys2Proof/Syntax.lean ====
section
/-! DEFINITION. What the block can be given: its instructions (one constructor per row of spec/opcode_table.json), the
operation port's word (30_encoding.md R77), the byte strings of the channel (R70), and the turns of the agents around it
(60_exceptions.md R230). -/

namespace Sys2Proof

/-- The command kinds (R24, R79: EM = 0, BYPASS = 1, PL = 2). -/
inductive CmdKind where
  | em
  | bypass
  | pl
  deriving DecidableEq, Repr

/-- The fourteen operations of the operation port and the four wire frames. -/
inductive Instr where
  /-- CRC_INIT (R100). -/
  | crcInit
  /-- CRC_BYTE (R101). -/
  | crcByte (b : Byte)
  /-- ENC_READ (R111). -/
  | encRead (reg count : Word)
  /-- ENC_WRITE (R112). -/
  | encWrite (reg count : Word) (data : List Word)
  /-- DEC_RESP (R113). -/
  | decResp (raw hdr : List Byte) (count : Word)
  /-- INTERP (R132). -/
  | interp (a w : Word)
  /-- TOPIC (R133). -/
  | topic (a : Word)
  /-- RSM_BEGIN (R151). -/
  | rsmBegin
  /-- RSM_WORD (R152). -/
  | rsmWord (a w : Word)
  /-- RSM_END (R153). -/
  | rsmEnd
  /-- EXCHANGE (R173). -/
  | exchange (frame hdr : List Byte) (count : Word)
  /-- CMD_POST (R197). -/
  | cmdPost (topic : String) (payload : List Byte)
  /-- CMD_TAKE (R198). -/
  | cmdTake
  /-- CMD_RETIRE (R199). -/
  | cmdRetire (kind : CmdKind) (gen : Nat)
  /-- REQ_READ, the read request frame (R71); every field of the frame but the fixed bytes. -/
  | reqRead (dev : Byte) (reg count crc : Word)
  /-- REQ_WRITE, the write request frame (R72). -/
  | reqWrite (dev : Byte) (reg count : Word) (data : List Word) (crc : Word)
  /-- RSP_READ, the read response frame (R73). -/
  | rspRead (dev : Byte) (reg count : Word) (data : List Word) (crc : Word)
  /-- RSP_WRITE, the write response frame (R74). -/
  | rspWrite (dev : Byte) (reg count : Word) (data : List Word) (crc : Word)
  deriving DecidableEq, Repr

/-- What stands on the operation port (R77): the operation code and one line per named operand. An operation reads the
lines its row of R77 names and no others. A line at rest carries zeros (`hdr`: eight zero bytes). -/
structure PortWord where
  op : BitVec 4
  b : Byte := 0
  reg : Word := 0
  count : Word := 0
  data : List Word := []
  raw : List Byte := []
  hdr : List Byte := [0, 0, 0, 0, 0, 0, 0, 0]
  a : Word := 0
  w : Word := 0
  frame : List Byte := []
  topic : String := ""
  payload : List Byte := []
  kind : BitVec 2 := 0
  gen : Nat := 0
  deriving DecidableEq, Repr

/-- What the outside presents to the block. -/
inductive Input where
  /-- An operation at the operation port (R77). -/
  | op (w : PortWord)
  /-- The bytes of a request frame for the transport session to carry (R71, R72). -/
  | request (bs : List Byte)
  /-- The bytes the channel returns to a read: `ChanRead() = Ok(raw)` (R172). -/
  | response (raw : List Byte)
  deriving DecidableEq, Repr

/-- One atomic step of one agent, with the channel's draw where the step makes one (R59, R230). -/
inductive Turn where
  /-- An issuer presents an operation or a frame, or the channel returns bytes to a read. -/
  | input (x : Input)
  /-- The exchange FSM takes its X_TX step; `ok` is the channel's answer to ChanWrite (R171). -/
  | chanWrite (ok : Bool)
  /-- The exchange FSM takes its X_RX step and the channel answers `Fail` (R172). -/
  | readFail
  /-- The scheduler takes its enabled step, issue or complete (R190). -/
  | scheduler
  /-- The issuer that has waited longest at the operation port tries again (R170, D43). -/
  | resume
  /-- The output consumer takes the oldest fact (R57). -/
  | consume
  /-- The cancellation source raises `cancel_in` (R222). -/
  | cancelIn
  /-- The reset input (R240). -/
  | reset
  deriving DecidableEq, Repr, Inhabited

end Sys2Proof
end

