-- ==== Sys2Proof/Config.lean ====
section
/-! DEFINITION. The parameters of 00_scope.md R8: the ones the source gives a value, as constants; the OPEN ones, as the
fields of `Config`; and the free values. -/

namespace Sys2Proof

/-- The OPEN parameters of R8. They are constant from reset onward (D33). Address sets are lists of addresses, partial
maps are lists of pairs (key, value) of which the first entry for a key counts. -/
structure Config where
  /-- `DEV_ADDR` (D4). -/
  devAddr : Byte
  /-- `MAX_COUNT` (D5). -/
  maxCount : Word
  /-- `TELEM_RANGE` (D37). -/
  telem : Range
  /-- `DIAG_RANGE[0..4]` (D37). -/
  diag : Five Range
  /-- `CONFIRM_RANGE` (D23). -/
  confirm : Range
  /-- `CMD_REG[EM]` (D24). -/
  cmdRegEm : Word
  /-- `CMD_REG[BYPASS]` (D24). -/
  cmdRegBypass : Word
  /-- `CMD_REG[PL]` (D24). -/
  cmdRegPl : Word
  /-- `ON_VALUE` (D25). -/
  onValue : Word
  /-- `OFF_VALUE` (D25). -/
  offValue : Word
  /-- `WRITE_ACK_COUNT` (D7). -/
  writeAckCount : Word
  /-- `PAIR_LOW` (D38). -/
  pairLow : Five Word
  /-- `PAIR_UNSIGNED` (D38). -/
  pairUnsigned : Word
  /-- `PAIR_DIV_UNSIGNED` (D15). -/
  pairDivUnsigned : Nat
  /-- `BOOL_ONOFF` (D47). -/
  boolOnOff : List Word
  /-- `BOOL_ONLINE` (D47). -/
  boolOnline : List Word
  /-- `SCALE10` (D11). -/
  scale10 : List Word
  /-- `SCALE100` (D11). -/
  scale100 : List Word
  /-- `SCALE1` (D11). -/
  scale1 : List Word
  /-- `SIGNED16` (D14). -/
  signed16 : List Word
  /-- `ENUM_BATTYPE` (D13). -/
  enumBatType : Word
  /-- `ENUM_BATVOLT` (D13). -/
  enumBatVolt : Word
  /-- `ENUM_EMSTATE` (D13). -/
  enumEmState : Word
  /-- `MAP_BATTYPE` (D13). -/
  mapBatType : List (Word × String)
  /-- `MAP_BATVOLT` (D13). -/
  mapBatVolt : List (Word × String)
  /-- `MAP_EMSTATE` (D13). -/
  mapEmState : List (Word × String)
  /-- `TOPIC_LUT` (D39). -/
  topicLut : List (Word × String)
  /-- `DEVICE_ID` (D39). -/
  deviceId : String
  /-- `FIFO_DEPTH`; `none` is the unbounded default (D30). -/
  fifoDepth : Option Nat
  deriving DecidableEq, Repr

namespace Config

/-- `BOOT`, first byte (source §6). -/
def boot0 : Byte := 0xA5
/-- `BOOT`, second byte (source §6). -/
def boot1 : Byte := 0x5A
/-- `FC_READ` (source §4.2). -/
def fcRead : Byte := 0x03
/-- `FC_WRITE` (source §4.2). -/
def fcWrite : Byte := 0x10
/-- `CRC_SEED` (source §4.1). -/
def crcSeed : Word := 0xFFFF
/-- `CRC_POLY_R` (source §4.1). -/
def crcPolyR : Word := 0xA001
/-- `PL_MIN` (source §4.8). -/
def plMin : Nat := 0
/-- `PL_MAX` (source §4.8). -/
def plMax : Nat := 1600

/-- FREE VALUE (R59, R171, R172; log 3): the agent that moves next, with the channel's draw, when `State.turns` is used
up. It has no body, so no proof can tell which turn it is. -/
opaque freeTurn : Nat → Turn

/-- FREE VALUE (log 12): the quotient of an unsigned pair by a `PAIR_DIV_UNSIGNED` of zero, for which the spec states
no value. -/
opaque freeQuotient : Nat → Rat

/-- FREE VALUE (log 15): what `xframe` holds after an EXCHANGE whose frame is longer than R20 lets it be, for which the spec
states no value. It is cut to the bound of R20 where it is used. -/
opaque freeFrame : List Byte → List Byte

/-- The example configuration EX of 95_test_vectors.md, with the spec's defaults. DESIGN CHOICE (log 1, log 2): EX gives
no `MAX_COUNT`, so the largest the type holds is taken; nothing is refused for its count. -/
def ex : Config where
  devAddr := 0x01
  maxCount := 0xFFFF
  telem := ⟨0x0100, 12⟩
  diag := ⟨⟨0x0200, 4⟩, ⟨0x0300, 2⟩, ⟨0x0400, 2⟩, ⟨0x0500, 1⟩, ⟨0x0600, 1⟩⟩
  confirm := ⟨0x0200, 4⟩
  cmdRegEm := 0x0200
  cmdRegBypass := 0x0201
  cmdRegPl := 0x0202
  onValue := 1
  offValue := 0
  writeAckCount := 0
  pairLow := ⟨0x0102, 0x0104, 0x0106, 0x0108, 0x010A⟩
  pairUnsigned := 0x010A
  pairDivUnsigned := 10
  boolOnOff := [0x0101, 0x0200, 0x0201]
  boolOnline := [0x0500]
  scale10 := [0x0100, 0x0301]
  scale100 := [0x0300]
  scale1 := [0x0202]
  signed16 := [0x0301]
  enumBatType := 0x0400
  enumBatVolt := 0x0401
  enumEmState := 0x0203
  mapBatType := [(0, "LiFePO4"), (1, "Lead-acid")]
  mapBatVolt := [(0, "24V"), (1, "48V")]
  mapEmState := [(0, "Offline"), (1, "Online"), (2, "Disabled")]
  topicLut := []
  deviceId := "7"
  fifoDepth := none

end Config

end Sys2Proof
end

