-- ==== Sys2Proof/Machine/Bytes.lean ====
section
/-! DEFINITION. Byte order, byte strings of words, and two's-complement reading (00_scope.md R9, 20_memory.md R53). -/

namespace Sys2Proof

/-- `hi(w) = w[15:8]` (R9). -/
def hi (w : Word) : Byte := w.extractLsb' 8 8

/-- `lo(w) = w[7:0]` (R9). -/
def lo (w : Word) : Byte := w.extractLsb' 0 8

/-- `be16(w) = [hi(w), lo(w)]` (R9). -/
def be16 (w : Word) : List Byte := [hi w, lo w]

/-- `le16(w) = [lo(w), hi(w)]` (R9). -/
def le16 (w : Word) : List Byte := [lo w, hi w]

/-- The word whose high byte is `h` and low byte `l`: `(zext_16(h) << 8) OR zext_16(l)` (R113). -/
def joinBytes (h l : Byte) : Word := (h.setWidth 16 <<< 8) ||| l.setWidth 16

/-- The big-endian byte string of a list of words (R70, bytes 8 to 8+2n). -/
def bytesOfWords (ws : List Word) : List Byte := ws.flatMap be16

/-- The big-endian words of a byte string, pair by pair (R113). -/
def wordsOfBytes : List Byte → List Word
  | h :: l :: rest => joinBytes h l :: wordsOfBytes rest
  | _ => []

/-- `sext_16` (R9). -/
def sext16 (w : Word) : Int := if w.toNat < 2 ^ 15 then (w.toNat : Int) else (w.toNat : Int) - 2 ^ 16

/-- `sext_32` (R155). -/
def sext32 (x : Long) : Int := if x.toNat < 2 ^ 31 then (x.toNat : Int) else (x.toNat : Int) - 2 ^ 32

/-- A 32-bit pair: `(high << 16) | low` (R53, R152). -/
def joinWords (high low : Word) : Long := (high.setWidth 32 <<< 16) ||| low.setWidth 32

end Sys2Proof
end

