-- ==== Sys2Proof/Machine/Checksum.lean ====
section
/-! DEFINITION. The pure checksum `crc16` and its byte step (41_crc.md R101, R102). -/

namespace Sys2Proof

/-- One of the eight rounds of R101. -/
def crcRound (c : Word) : Word :=
  if c.getLsbD 0 then (c >>> 1) ^^^ Config.crcPolyR else c >>> 1

/-- `n` rounds. -/
def crcRounds : Nat → Word → Word
  | 0, c => c
  | n + 1, c => crcRounds n (crcRound c)

/-- The value R101 computes from the accumulator and one byte. -/
def crcStep (c : Word) (b : Byte) : Word := crcRounds 8 (c ^^^ b.setWidth 16)

/-- `crc16(s)` (R102): the fold of the byte step from `0xFFFF`. -/
def crc16 (s : List Byte) : Word := s.foldl crcStep Config.crcSeed

end Sys2Proof
end

