-- ==== Sys2Proof/WellFormed.lean ====
section
/-! DEFINITION. What a well-formed parameter set is (92_eei_decisions.md D10, D11, D13, D14, D38) and what a well-formed
instruction is under it (30_encoding.md R70 to R74, R80). -/

namespace Sys2Proof

/-- D10: a configured range does not wrap. -/
def Range.wf (r : Range) : Bool := decide (r.start.toNat + r.count.toNat ≤ 0x10000)

namespace Config

/-- The five addresses of `PAIR_LOW`. -/
def pairs (c : Config) : List Word := [c.pairLow.x0, c.pairLow.x1, c.pairLow.x2, c.pairLow.x3, c.pairLow.x4]

/-- D10 for every configured range. -/
def rangesWf (c : Config) : Bool :=
  c.telem.wf && c.diag.x0.wf && c.diag.x1.wf && c.diag.x2.wf && c.diag.x3.wf && c.diag.x4.wf && c.confirm.wf

/-- D38: five distinct base addresses below `0xFFFF`, no base the companion of another. -/
def pairsWf (c : Config) : Bool :=
  decide c.pairs.Nodup && c.pairs.all fun p => decide (p ≠ 0xFFFF) && !c.pairs.contains (p + 1)

/-- R155, D38: the unsigned pair is one of the five. -/
def pairUnsignedWf (c : Config) : Bool := c.pairs.contains c.pairUnsigned

/-- The classes of R130, in the order of its table. -/
def classes (c : Config) : List (List Word) :=
  [c.boolOnOff, c.boolOnline, c.scale10, c.scale100, c.scale1, [c.enumBatType], [c.enumBatVolt], [c.enumEmState]]

/-- D11: the classes are pairwise disjoint. -/
def classesDisjoint : List (List Word) → Bool
  | [] => true
  | l :: ls => (ls.all fun m => l.all fun a => !m.contains a) && classesDisjoint ls

/-- D11, D14: `SIGNED16 ⊆ SCALE10 ∪ SCALE100 ∪ SCALE1`. -/
def signedWf (c : Config) : Bool :=
  c.signed16.all fun a => c.scale10.contains a || c.scale100.contains a || c.scale1.contains a

/-- R131: `MAP_EMSTATE` has three entries. -/
def emStateWf (c : Config) : Bool := decide (c.mapEmState.length = 3) && decide (c.mapEmState.map Prod.fst).Nodup

/-- A parameter set that meets every constraint of the spec. -/
def wf (c : Config) : Bool :=
  c.rangesWf && c.pairsWf && c.pairUnsignedWf && classesDisjoint c.classes && c.signedWf && c.emStateWf

end Config

/-- The bytes of a frame before its CRC trailer (R70). -/
def frameBody (dev fc : Byte) (reg count : Word) (data : List Word) : List Byte :=
  [Config.boot0, Config.boot1, dev, fc] ++ be16 reg ++ be16 count ++ bytesOfWords data

/-- The instruction is well-formed under the parameters: its operands are inside their types (R80), and a frame's device
address, data length and CRC are those of R70 to R74. -/
def Instr.wf (c : Config) : Instr → Bool
  | .crcInit => true
  | .crcByte _ => true
  | .encRead _ count => decide (count ≤ c.maxCount)
  | .encWrite _ count data => decide (count ≤ c.maxCount) && decide (data.length = count.toNat)
  | .decResp _ hdr count => decide (count ≤ c.maxCount) && decide (hdr.length = 8)
  | .interp _ _ => true
  | .topic _ => true
  | .rsmBegin => true
  | .rsmWord _ _ => true
  | .rsmEnd => true
  | .exchange _ hdr count => decide (count ≤ c.maxCount) && decide (hdr.length = 8)
  | .cmdPost _ _ => true
  | .cmdTake => true
  | .cmdRetire _ _ => true
  | .reqRead dev reg count crc =>
    decide (dev = c.devAddr) && decide (count ≤ c.maxCount) && decide (crc = crc16 (frameBody dev Config.fcRead reg count []))
  | .reqWrite dev reg count data crc =>
    decide (dev = c.devAddr) && decide (count ≤ c.maxCount) && decide (data.length = count.toNat) &&
      decide (crc = crc16 (frameBody dev Config.fcWrite reg count data))
  | .rspRead dev reg count data crc =>
    decide (dev = c.devAddr) && decide (count ≤ c.maxCount) && decide (data.length = count.toNat) &&
      decide (crc = crc16 (frameBody dev Config.fcRead reg count data))
  | .rspWrite dev reg count data crc =>
    decide (dev = c.devAddr) && decide (count ≤ c.maxCount) && decide (data.length = c.writeAckCount.toNat) &&
      decide (crc = crc16 (frameBody dev Config.fcWrite reg count data))

end Sys2Proof
end

