-- ==== Sys2Proof/Decode.lean ====
section
/-! DEFINITION. The decoder, total on every operation word and every byte string, and the encoder
(30_encoding.md R70 to R80). -/

namespace Sys2Proof

/-- Why an input is no instruction. -/
inductive DecodeError where
  /-- Op codes `0x0` and `0xF` (R78). -/
  | reservedOp
  /-- Command kind 3 (R79, R80). -/
  | reservedKind
  /-- A byte string that is none of the frames of R70 to R74. -/
  | notAFrame
  deriving DecidableEq, Repr

/-- The command kind of a 2-bit code (R79). -/
def decodeKind (k : BitVec 2) : Option CmdKind :=
  match k.toNat with
  | 0 => some .em
  | 1 => some .bypass
  | 2 => some .pl
  | _ => none

/-- The 2-bit code of a command kind (R79). -/
def encodeKind : CmdKind → BitVec 2
  | .em => 0
  | .bypass => 1
  | .pl => 2

/-- The operation of a port word (R77, R78): the code selects the operation, and the operation reads its own lines. -/
def decodeOp (p : PortWord) : Except DecodeError Instr :=
  match p.op.toNat with
  | 0x1 => .ok .crcInit
  | 0x2 => .ok (.crcByte p.b)
  | 0x3 => .ok (.encRead p.reg p.count)
  | 0x4 => .ok (.encWrite p.reg p.count p.data)
  | 0x5 => .ok (.decResp p.raw p.hdr p.count)
  | 0x6 => .ok (.interp p.a p.w)
  | 0x7 => .ok (.topic p.a)
  | 0x8 => .ok .rsmBegin
  | 0x9 => .ok (.rsmWord p.a p.w)
  | 0xA => .ok .rsmEnd
  | 0xB => .ok (.exchange p.frame p.hdr p.count)
  | 0xC => .ok (.cmdPost p.topic p.payload)
  | 0xD => .ok .cmdTake
  | 0xE =>
    match decodeKind p.kind with
    | some k => .ok (.cmdRetire k p.gen)
    | none => .error .reservedKind
  | _ => .error .reservedOp

/-- A frame as its fields (R70), the two fixed marker bytes left out. -/
structure FrameFields where
  dev : Byte
  fc : Byte
  reg : Word
  count : Word
  data : List Word
  crc : Word
  deriving DecidableEq, Repr

/-- The data words and the little-endian trailer that follow a header (R70): an even number of bytes, at least two. -/
def splitTail : List Byte → Option (List Word × Word)
  | [l, h] => some ([], joinBytes h l)
  | h :: l :: rest =>
    match splitTail rest with
    | some (ws, c) => some (joinBytes h l :: ws, c)
    | none => none
  | _ => none

/-- The fields of a frame (R70); `none` for a byte string with another marker or another shape. -/
def splitFrame : List Byte → Option FrameFields
  | m0 :: m1 :: dev :: fc :: r1 :: r0 :: c1 :: c0 :: rest =>
    if m0 = Config.boot0 ∧ m1 = Config.boot1 then
      match splitTail rest with
      | some (ws, c) => some ⟨dev, fc, joinBytes r1 r0, joinBytes c1 c0, ws, c⟩
      | none => none
    else none
  | _ => none

/-- A request frame (R71, R72): the read request carries no data words. -/
def decodeRequest (bs : List Byte) : Except DecodeError Instr :=
  match splitFrame bs with
  | none => .error .notAFrame
  | some f =>
    if f.fc = Config.fcRead then
      if f.data = [] then .ok (.reqRead f.dev f.reg f.count f.crc) else .error .notAFrame
    else if f.fc = Config.fcWrite then .ok (.reqWrite f.dev f.reg f.count f.data f.crc)
    else .error .notAFrame

/-- A response frame (R73, R74). -/
def decodeResponse (bs : List Byte) : Except DecodeError Instr :=
  match splitFrame bs with
  | none => .error .notAFrame
  | some f =>
    if f.fc = Config.fcRead then .ok (.rspRead f.dev f.reg f.count f.data f.crc)
    else if f.fc = Config.fcWrite then .ok (.rspWrite f.dev f.reg f.count f.data f.crc)
    else .error .notAFrame

/-- The decoder. A request and its response begin with the same words (R71 and R73, R72 and R74), and the side of the
half-duplex channel that sends the bytes tells them apart (log 7). -/
def decode : Input → Except DecodeError Instr
  | .op p => decodeOp p
  | .request bs => decodeRequest bs
  | .response raw => decodeResponse raw

/-- The bytes of a whole frame (R70). -/
def frameBytes (dev fc : Byte) (reg count : Word) (data : List Word) (crc : Word) : List Byte :=
  frameBody dev fc reg count data ++ le16 crc

/-- The encoder: the port word of an operation, every line it does not name at rest (R77), or the bytes of a frame (R70). -/
def encode : Instr → Input
  | .crcInit => .op { op := 0x1 }
  | .crcByte b => .op { op := 0x2, b := b }
  | .encRead reg count => .op { op := 0x3, reg := reg, count := count }
  | .encWrite reg count data => .op { op := 0x4, reg := reg, count := count, data := data }
  | .decResp raw hdr count => .op { op := 0x5, raw := raw, hdr := hdr, count := count }
  | .interp a w => .op { op := 0x6, a := a, w := w }
  | .topic a => .op { op := 0x7, a := a }
  | .rsmBegin => .op { op := 0x8 }
  | .rsmWord a w => .op { op := 0x9, a := a, w := w }
  | .rsmEnd => .op { op := 0xA }
  | .exchange frame hdr count => .op { op := 0xB, frame := frame, hdr := hdr, count := count }
  | .cmdPost topic payload => .op { op := 0xC, topic := topic, payload := payload }
  | .cmdTake => .op { op := 0xD }
  | .cmdRetire kind gen => .op { op := 0xE, kind := encodeKind kind, gen := gen }
  | .reqRead dev reg count crc => .request (frameBytes dev Config.fcRead reg count [] crc)
  | .reqWrite dev reg count data crc => .request (frameBytes dev Config.fcWrite reg count data crc)
  | .rspRead dev reg count data crc => .response (frameBytes dev Config.fcRead reg count data crc)
  | .rspWrite dev reg count data crc => .response (frameBytes dev Config.fcWrite reg count data crc)

/-- Byte `k` of a frame whose 32-bit big-endian words are numbered as the opcode table numbers them: the first word is
bits 31..0 of `w`, the next word bits 63..32, and so on. -/
def tableByte (w k : Nat) : Byte := BitVec.ofNat 8 (w >>> (32 * (k / 4) + 8 * (3 - k % 4)))

/-- The frame bytes of a table word: ten bytes, and `count` words more where the function code is the write code. -/
def tableFrame (w : Nat) : List Byte :=
  let n := if tableByte w 3 = Config.fcWrite then 2 * (joinBytes (tableByte w 6) (tableByte w 7)).toNat else 0
  (List.range (10 + n)).map (tableByte w)

/-- What a word of the opcode table puts before the block: a row of at most one byte is an operation of the port, of
which four lines carry the code and every operand line rests at zero (log 5); a wider row is a frame, read as the frame
the block sends (log 7). -/
def tableInput (nbits w : Nat) : Input :=
  if nbits ≤ 8 then .op { op := BitVec.ofNat 4 w } else .request (tableFrame w)

/-- The instruction the decoder reads from an opcode-table word. -/
def decodeTableWord (nbits w : Nat) : Option Instr :=
  match decode (tableInput nbits w) with
  | .ok i => some i
  | .error _ => none

end Sys2Proof
end

