-- ==== Sys2Proof/Machine/State.lean ====
section
/-! DEFINITION. The state of the block (10_state.md R20 to R30), its ports, the reasons a step can stop, and reset
(70_reset_and_hazards.md R240). -/

namespace Sys2Proof.Machine

/-- The exchange FSM's state (R22, R174). -/
inductive XState where
  | idle
  | tx
  | rx
  | ok
  | cancelled
  deriving DecidableEq, Repr

/-- The scheduler's state (R25). -/
inductive SState where
  | telem
  | svcWrite
  | svcConfirm
  | diag
  | halted
  deriving DecidableEq, Repr

/-- One PendingCommand register (R24). `gen` is an unbounded natural (D29). -/
structure PendingCmd where
  dirty : Bool
  value : Word
  gen : Nat
  deriving DecidableEq, Repr

/-- The three PendingCommand registers (R24). -/
structure CmdRegs where
  em : PendingCmd
  bypass : PendingCmd
  pl : PendingCmd
  deriving DecidableEq, Repr

/-- The command being serviced (R27). -/
structure Service where
  kind : CmdKind
  value : Word
  gen : Nat
  deriving DecidableEq, Repr

/-- A physical value (R11): an exact rational or a label. -/
inductive PhysicalValue where
  | num (q : Rat)
  | label (s : String)
  deriving DecidableEq, Repr

/-- A DecodedFact (R12). -/
structure Fact where
  addr : Word
  value : PhysicalValue
  deriving DecidableEq, Repr

/-- The result of DEC_RESP (R79, R113). -/
inductive DecResult where
  | ok (words : List Word)
  | lengthError
  | headerMismatch
  | checksumError
  deriving DecidableEq, Repr

/-- The outcome of RSM_WORD (R79, R152). -/
inductive RsmOutcome where
  | held
  | combined
  | dropped
  | passed
  deriving DecidableEq, Repr

/-- The result of CMD_POST (R79, R197). -/
inductive PostResult where
  | accepted
  | rejected
  deriving DecidableEq, Repr

/-- The result of CMD_RETIRE (R199). -/
inductive RetireResult where
  | cleared
  | kept
  deriving DecidableEq, Repr

/-- The operation port's result lines (R77, column "result"; log 8). -/
inductive Result where
  /-- The operation has no result. -/
  | none
  /-- CRC_BYTE: the new `crc`. -/
  | crc (c : Word)
  /-- ENC_READ, ENC_WRITE: the frame. -/
  | frame (bs : List Byte)
  /-- DEC_RESP. -/
  | decoded (r : DecResult)
  /-- INTERP. -/
  | value (v : PhysicalValue)
  /-- TOPIC: a topic string or none. -/
  | topic (t : Option String)
  /-- RSM_WORD. -/
  | reassembled (o : RsmOutcome)
  /-- EXCHANGE, and a request frame: the exchange has started. -/
  | started
  /-- The operation holds: its issuer waits (R170, R57, D43). -/
  | waits
  /-- CMD_POST. -/
  | posted (r : PostResult)
  /-- CMD_TAKE. -/
  | taken (t : Option Service)
  /-- CMD_RETIRE. -/
  | retired (r : RetireResult)
  deriving DecidableEq, Repr

/-- The state. The first block of fields is the record of R20; the second is the model's own: the parameters (log 1)
and the block's ports and surroundings (log 3, 8, 9, 10). -/
structure State where
  /-- R21 -/
  crc : Word
  /-- R22 -/
  xstate : XState
  /-- R22; at most `10 + 2·MAX_COUNT` bytes (R20) -/
  xframe : List Byte
  /-- R22 -/
  xhdr : List Byte
  /-- R22 -/
  xcnt : Word
  /-- R22 -/
  xwords : List Word
  /-- R23: entry `i` belongs to base address `i` of `cfg.pairLow` -/
  pend : Five (Option Word)
  /-- R24 -/
  pcmd : CmdRegs
  /-- R25 -/
  sstate : SState
  /-- R26 -/
  rr : Fin 5
  /-- R27 -/
  svc : Option Service
  /-- R28 -/
  cancel : Bool
  /-- R29 -/
  fault : Bool
  /-- R30: oldest first -/
  out : List Fact
  /-- the parameters (R8) -/
  cfg : Config
  /-- the operation port's result lines (R77) -/
  result : Result
  /-- the operations whose issuers wait at the port, oldest first (R170, R57) -/
  waiting : List Instr
  /-- what ChanWrite has put on the channel, oldest first (R171) -/
  wire : List (List Byte)
  /-- the agents' next turns, oldest first (R59) -/
  turns : List Turn
  /-- how many free turns have been taken -/
  draws : Nat
  deriving DecidableEq, Repr

/-- The block has no trap and no fault that stops it (R227): nothing raises one, so the type is empty. Safe (log 19). -/
inductive Fault : Type
  deriving DecidableEq, Repr

/-- Why a step has no meaning. Every refusal stops the model where the spec says `refuse`, so each is safe. -/
inductive Refusal where
  /-- Raised by an arm of `exec` for an instruction without a meaning. No arm raises it. Safe. -/
  | notModelled (mnemonic : String)
  /-- Raised by the step on op codes `0x0` and `0xF`: `refuse(ReservedOp)` (R78). Safe. -/
  | reservedOp
  /-- Raised by the step on command kind 3 (R79, R80). Safe. -/
  | reservedKind
  /-- Raised by the step on request bytes that are no request frame of R71 or R72. Safe. -/
  | notAFrame
  /-- Raised by ENC_READ, ENC_WRITE, a request frame and the scheduler's issue step: `refuse(CountTooLarge)` (R111, R112, R80). Safe. -/
  | countTooLarge
  /-- Raised by ENC_WRITE and REQ_WRITE: `refuse(DataLengthMismatch)` (R112, R80). Safe. -/
  | dataLengthMismatch
  /-- Raised by DEC_RESP and EXCHANGE, and by whatever uses them: `refuse(BadOperand)` (R113, R173). Safe. -/
  | badOperand
  deriving DecidableEq, Repr

/-- Reset under the parameters `c` (R240). `xframe`, `xhdr` and `xcnt` are unspecified in the spec: DESIGN CHOICE (log 11).
The model's own fields are at rest (log 3, 8, 9, 10). -/
def State.resetWith (c : Config) : State where
  crc := 0xFFFF
  xstate := .idle
  xframe := []
  xhdr := [0, 0, 0, 0, 0, 0, 0, 0]
  xcnt := 0
  xwords := []
  pend := ⟨none, none, none, none, none⟩
  pcmd := ⟨⟨false, 0, 0⟩, ⟨false, 0, 0⟩, ⟨false, 0, 0⟩⟩
  sstate := .telem
  rr := 0
  svc := none
  cancel := false
  fault := false
  out := []
  cfg := c
  result := .none
  waiting := []
  wire := []
  turns := []
  draws := 0

/-- The machine right after reset. DESIGN CHOICE (log 1): its parameters are the example configuration EX. -/
def State.reset : State := State.resetWith Config.ex

end Sys2Proof.Machine
end

