-- ==== Sys2Proof/Machine/Ops.lean ====
section
/-! DEFINITION. The shared operations over the registers and ports: reading and writing the keyed registers, emitting
facts, holding an operation, the transport failure (the spec's only exceptional event inside a step), cancellation and
reset. -/

namespace Sys2Proof

/-- Entry `i` of five. -/
def Five.get {α : Type} (f : Five α) (i : Fin 5) : α :=
  match i with
  | 0 => f.x0
  | 1 => f.x1
  | 2 => f.x2
  | 3 => f.x3
  | 4 => f.x4

/-- Five with entry `i` replaced. -/
def Five.set {α : Type} (f : Five α) (i : Fin 5) (v : α) : Five α :=
  match i with
  | 0 => { f with x0 := v }
  | 1 => { f with x1 := v }
  | 2 => { f with x2 := v }
  | 3 => { f with x3 := v }
  | 4 => { f with x4 := v }

end Sys2Proof

namespace Sys2Proof.Machine

/-- `pcmd[k]` (R24). -/
def CmdRegs.get (r : CmdRegs) : CmdKind → PendingCmd
  | .em => r.em
  | .bypass => r.bypass
  | .pl => r.pl

/-- `pcmd[k] <- p` (R24). -/
def CmdRegs.set (r : CmdRegs) (k : CmdKind) (p : PendingCmd) : CmdRegs :=
  match k with
  | .em => { r with em := p }
  | .bypass => { r with bypass := p }
  | .pl => { r with pl := p }

/-- The empty accumulator: every entry `None` (R151, R153). -/
def pendEmpty : Five (Option Word) := ⟨none, none, none, none, none⟩

/-- Put a value on the operation port's result lines (R77). -/
def State.withResult (s : State) (r : Result) : State := { s with result := r }

/-- `Emit` of facts in order (R57). -/
def State.emit (s : State) (fs : List Fact) : State := { s with out := s.out ++ fs }

/-- At least `m` places are free in `out` (R57, R190). -/
def State.hasRoom (s : State) (m : Nat) : Bool :=
  match s.cfg.fifoDepth with
  | none => true
  | some d => decide (m ≤ d - s.out.length)

/-- The operation is not taken now and its issuer waits (R170, D43, R57). -/
def State.holdOp (s : State) (i : Instr) : State := { s with waiting := s.waiting ++ [i], result := .waits }

/-- The list of waiting operations is replaced (log 9). -/
def State.withWaiting (s : State) (is : List Instr) : State := { s with waiting := is }

/-- TransportFailure (R176, R221), the one event that redirects the block: cancellation rises, the cause is recorded and
the exchange ends cancelled. Nothing is saved and nothing returns from it (R227, R228). -/
def State.raiseTransportFailure (s : State) : State := { s with cancel := true, fault := true, xstate := .cancelled }

/-- The cancellation source's step (R222). -/
def State.raiseCancel (s : State) : State := { s with cancel := true }

/-- The output consumer takes the oldest fact (R57); with none waiting it takes nothing. -/
def State.consumeFact (s : State) : State := { s with out := s.out.drop 1 }

/-- The reset input (R240, R241): every element of R20 at its reset value, the parameters kept, the waiting operations
dropped. What is outside the block is not reset: the bytes already on the channel and the turns to come (log 17). -/
def State.pullReset (s : State) : State :=
  { State.resetWith s.cfg with wire := s.wire, turns := s.turns, draws := s.draws }

end Sys2Proof.Machine
end

