-- ==== Sys2Proof/Machine/Crc.lean ====
section
/-! DEFINITION. The CRC-16 generator's operations (41_crc.md). -/

namespace Sys2Proof.Machine

/-- CRC_INIT (R100). -/
def execCrcInit (s : State) : Host.Outcome State Fault Refusal :=
  .next { s with crc := Config.crcSeed, result := .none }

/-- CRC_BYTE (R101). -/
def execCrcByte (b : Byte) (s : State) : Host.Outcome State Fault Refusal :=
  .next { s with crc := crcStep s.crc b, result := .crc (crcStep s.crc b) }

end Sys2Proof.Machine
end

