-- ==== Sys2Proof/Machine/Operands.lean ====
section
/-! DEFINITION. Operand checks (30_encoding.md R80, 42_frame_codec.md R113, 45_arbiter_retry.md R173), the operand that
names a command's register (R203), the look-up of a base address, and the codes of the enumerated values (R79). -/

namespace Sys2Proof.Machine

/-- `count ≤ MAX_COUNT` (R80). -/
def countOk (c : Config) (count : Word) : Bool := decide (count ≤ c.maxCount)

/-- The operand check DEC_RESP and EXCHANGE share: `count ≤ MAX_COUNT` and a header of eight bytes (R113, R173). -/
def respOperandsOk (c : Config) (hdr : List Byte) (count : Word) : Bool := countOk c count && decide (hdr.length = 8)

/-- The most bytes `xframe` holds: `10 + 2·MAX_COUNT` (R20). -/
def frameBound (c : Config) : Nat := 10 + 2 * c.maxCount.toNat

/-- What `xframe` holds after EXCHANGE of a frame (R173): the frame; for a frame beyond the bound of R20 a FREE VALUE within
the bound (log 15). -/
def latchFrame (c : Config) (frame : List Byte) : List Byte :=
  if frame.length ≤ frameBound c then frame else (Config.freeFrame frame).take (frameBound c)

/-- `CMD_REG[k]` (R203). -/
def cmdReg (c : Config) : CmdKind → Word
  | .em => c.cmdRegEm
  | .bypass => c.cmdRegBypass
  | .pl => c.cmdRegPl

/-- The place of a base address in `PAIR_LOW` (R150). -/
def pairSlot (c : Config) (a : Word) : Option (Fin 5) :=
  if a = c.pairLow.x0 then some 0
  else if a = c.pairLow.x1 then some 1
  else if a = c.pairLow.x2 then some 2
  else if a = c.pairLow.x3 then some 3
  else if a = c.pairLow.x4 then some 4
  else none

/-- `X_IDLE = 0` to `X_CANCELLED = 4` (R79). -/
def xstateCode : XState → BitVec 3
  | .idle => 0
  | .tx => 1
  | .rx => 2
  | .ok => 3
  | .cancelled => 4

/-- `S_TELEM = 0` to `S_HALTED = 4` (R79). -/
def sstateCode : SState → BitVec 3
  | .telem => 0
  | .svcWrite => 1
  | .svcConfirm => 2
  | .diag => 3
  | .halted => 4

/-- `OK = 0`, `LENGTH_ERROR = 1`, `HEADER_MISMATCH = 2`, `CHECKSUM_ERROR = 3` (R79). -/
def decCode : DecResult → BitVec 2
  | .ok _ => 0
  | .lengthError => 1
  | .headerMismatch => 2
  | .checksumError => 3

/-- `HELD = 0`, `COMBINED = 1`, `DROPPED = 2`, `PASSED = 3` (R79). -/
def rsmCode : RsmOutcome → BitVec 2
  | .held => 0
  | .combined => 1
  | .dropped => 2
  | .passed => 3

/-- `ACCEPTED = 0`, `REJECTED = 1` (R79). -/
def postCode : PostResult → BitVec 1
  | .accepted => 0
  | .rejected => 1

end Sys2Proof.Machine
end

