-- ==== Sys2Proof/Machine/Flags.lean ====
section
/-! DEFINITION. The status bits (10_state.md R31): the dirty flags with their values and generations.
The block has no condition codes. -/

namespace Sys2Proof.Machine

/-- An accepted post (R197): new value, dirty set, generation advanced. -/
def PendingCmd.posted (p : PendingCmd) (v : Word) : PendingCmd := { dirty := true, value := v, gen := p.gen + 1 }

/-- The compare-and-swap of R199 on one register: dirty is cleared only at the same generation. -/
def PendingCmd.retired (p : PendingCmd) (gen : Nat) : PendingCmd :=
  if p.gen = gen then { p with dirty := false } else p

/-- The result of R199. -/
def retireResult (p : PendingCmd) (gen : Nat) : RetireResult := if p.gen = gen then .cleared else .kept

/-- The first dirty command in the order EM, BYPASS, PL (R198, R226(d)). -/
def firstDirty (r : CmdRegs) : Option Service :=
  if r.em.dirty then some ⟨.em, r.em.value, r.em.gen⟩
  else if r.bypass.dirty then some ⟨.bypass, r.bypass.value, r.bypass.gen⟩
  else if r.pl.dirty then some ⟨.pl, r.pl.value, r.pl.gen⟩
  else none

end Sys2Proof.Machine
end

