-- ==== Sys2Proof/Machine/Commands.lean ====
section
/-! DEFINITION. The PendingCommand registers' ports (46_scheduler.md R197 to R202). -/

namespace Sys2Proof.Machine

/-- The three command topics, and no other (R202, D49). -/
def route (c : Config) (topic : String) : Option CmdKind :=
  if topic = "solar/ems/" ++ c.deviceId ++ "/EMS_EM/turn" then some .em
  else if topic = "solar/ems/" ++ c.deviceId ++ "/EMS_Bypass/turn" then some .bypass
  else if topic = "solar/ems/" ++ c.deviceId ++ "/EMS_Power_Limit/set" then some .pl
  else none

/-- The bytes of "on" (R200). -/
def onBytes : List Byte := [0x6F, 0x6E]

/-- The bytes of "off" (R200). -/
def offBytes : List Byte := [0x6F, 0x66, 0x66]

/-- EM and Bypass validation (R200). -/
def validateSwitch (c : Config) (payload : List Byte) : Option Word :=
  if payload = onBytes then some c.onValue
  else if payload = offBytes then some c.offValue
  else none

/-- An ASCII digit `0` to `9` (R201). -/
def isDigit (b : Byte) : Bool := decide (0x30 ≤ b.toNat) && decide (b.toNat ≤ 0x39)

/-- The decimal value of a string of digits (R201). -/
def decimal (payload : List Byte) : Nat := payload.foldl (fun n b => 10 * n + (b.toNat - 0x30)) 0

/-- Power-Limit validation (R201, D26). -/
def validatePowerLimit (payload : List Byte) : Option Word :=
  if payload ≠ [] ∧ payload.all isDigit ∧ Config.plMin ≤ decimal payload ∧ decimal payload ≤ Config.plMax then
    some (BitVec.ofNat 16 (decimal payload))
  else none

/-- `validate(k, payload)` (R200, R201). -/
def validate (c : Config) (k : CmdKind) (payload : List Byte) : Option Word :=
  match k with
  | .em => validateSwitch c payload
  | .bypass => validateSwitch c payload
  | .pl => validatePowerLimit payload

/-- `pcmd[k]` takes an accepted value (R197). -/
def State.postCommand (s : State) (k : CmdKind) (v : Word) : State :=
  { s with pcmd := s.pcmd.set k ((s.pcmd.get k).posted v) }

/-- The compare-and-swap of R199 on `pcmd[k]`. -/
def State.retireCommand (s : State) (k : CmdKind) (gen : Nat) : State :=
  { s with pcmd := s.pcmd.set k ((s.pcmd.get k).retired gen) }

/-- CMD_POST (R197). -/
def execCmdPost (topic : String) (payload : List Byte) (s : State) : Host.Outcome State Fault Refusal :=
  match route s.cfg topic with
  | none => .next (s.withResult (.posted .rejected))
  | some k =>
    match validate s.cfg k payload with
    | none => .next (s.withResult (.posted .rejected))
    | some v => .next ((s.postCommand k v).withResult (.posted .accepted))

/-- CMD_TAKE (R198): reads the three registers and changes none. -/
def execCmdTake (s : State) : Host.Outcome State Fault Refusal := .next (s.withResult (.taken (firstDirty s.pcmd)))

/-- CMD_RETIRE (R199). -/
def execCmdRetire (kind : CmdKind) (gen : Nat) (s : State) : Host.Outcome State Fault Refusal :=
  .next ((s.retireCommand kind gen).withResult (.retired (retireResult (s.pcmd.get kind) gen)))

end Sys2Proof.Machine
end

