-- ==== Sys2Proof/Machine/FrameCodec.lean ====
section
/-! DEFINITION. The frame encoder and decoder (42_frame_codec.md). The codec uses the pure `crc16` and leaves `crc`
unchanged (D44). -/

namespace Sys2Proof.Machine

/-- `HDR(fc, reg, count)` (R110). -/
def frameHeader (c : Config) (fc : Byte) (reg count : Word) : List Byte :=
  [Config.boot0, Config.boot1, c.devAddr, fc] ++ be16 reg ++ be16 count

/-- A body with its CRC trailer (R103). -/
def withTrailer (body : List Byte) : List Byte := body ++ le16 (crc16 body)

/-- ENC_READ's frame (R111). -/
def readFrame (c : Config) (reg count : Word) : Except Refusal (List Byte) :=
  if countOk c count then .ok (withTrailer (frameHeader c Config.fcRead reg count)) else .error .countTooLarge

/-- ENC_WRITE's frame (R112): the CRC covers header and data. -/
def writeFrame (c : Config) (reg count : Word) (data : List Word) : Except Refusal (List Byte) :=
  if countOk c count then
    if data.length = count.toNat then .ok (withTrailer (frameHeader c Config.fcWrite reg count ++ bytesOfWords data))
    else .error .dataLengthMismatch
  else .error .countTooLarge

/-- `10 + 2·count`, on naturals (R70, D48). -/
def frameLength (count : Word) : Nat := 10 + 2 * count.toNat

/-- The trailer test of R103 on a frame of at least two bytes. -/
def trailerOk (r : List Byte) : Bool :=
  decide (joinBytes (r.getD (r.length - 1) 0) (r.getD (r.length - 2) 0) = crc16 (r.take (r.length - 2)))

/-- The three checks of R113 in their order, and the words. -/
def parseResponse (raw hdr : List Byte) (count : Word) : DecResult :=
  if raw.length < frameLength count then .lengthError
  else
    let r := raw.take (frameLength count)
    if r.take 8 ≠ hdr then .headerMismatch
    else if trailerOk r then .ok (wordsOfBytes ((r.drop 8).take (2 * count.toNat)))
    else .checksumError

/-- DEC_RESP (R113). -/
def decodeResp (c : Config) (raw hdr : List Byte) (count : Word) : Except Refusal DecResult :=
  if respOperandsOk c hdr count then .ok (parseResponse raw hdr count) else .error .badOperand

/-- An operation whose result is computed from its operands alone. -/
def answer {α : Type} (r : Except Refusal α) (f : α → Result) (s : State) : Host.Outcome State Fault Refusal :=
  match r with
  | .ok x => .next (s.withResult (f x))
  | .error e => .refused e

/-- ENC_READ (R111). -/
def execEncRead (reg count : Word) (s : State) : Host.Outcome State Fault Refusal :=
  answer (readFrame s.cfg reg count) .frame s

/-- ENC_WRITE (R112). -/
def execEncWrite (reg count : Word) (data : List Word) (s : State) : Host.Outcome State Fault Refusal :=
  answer (writeFrame s.cfg reg count data) .frame s

/-- DEC_RESP (R113). -/
def execDecResp (raw hdr : List Byte) (count : Word) (s : State) : Host.Outcome State Fault Refusal :=
  answer (decodeResp s.cfg raw hdr count) .decoded s

end Sys2Proof.Machine
end

