-- ==== Sys2Proof/Machine/Exchange.lean ====
section
/-! DEFINITION. The half-duplex arbiter and the exchange FSM (45_arbiter_retry.md), and the wire frames that move it. -/

namespace Sys2Proof.Machine

/-- EXCHANGE's acceptance step in X_IDLE (R173). -/
def acceptExchange (frame hdr : List Byte) (count : Word) (s : State) : Host.Outcome State Fault Refusal :=
  if respOperandsOk s.cfg hdr count then
    .next { s with xframe := latchFrame s.cfg frame, xhdr := hdr, xcnt := count, xwords := [],
                   xstate := if s.cancel then .cancelled else .tx }
  else .refused .badOperand

/-- The X_TX step (R174, R175): no write once `cancel` is set; the channel answers `ok`. Outside X_TX the step is not
enabled and nothing happens (log 16). -/
def sendStep (ok : Bool) (s : State) : State :=
  if s.xstate = .tx then
    if s.cancel then { s with xstate := .cancelled }
    else if ok then { s with wire := s.wire ++ [s.xframe], xstate := .rx }
    else s.raiseTransportFailure
  else s

/-- The X_RX step in which the channel answers `Fail` (R174, R226(b)). -/
def readFailStep (s : State) : State := if s.xstate = .rx then s.raiseTransportFailure else s

/-- The X_RX step in which the channel returns `raw` (R174): a valid response ends the exchange, any error retries.
Outside X_RX the block does not read the channel (R60), so the bytes change nothing in it (log 6, log 16). -/
def receiveStep (raw : List Byte) (s : State) : Host.Outcome State Fault Refusal :=
  if s.xstate = .rx then
    match decodeResp s.cfg raw s.xhdr s.xcnt with
    | .ok (.ok ws) => .next { s with xwords := ws, xstate := .ok }
    | .ok _ => .next { s with xstate := .tx }
    | .error e => .refused e
  else .next s

/-- EXCHANGE (R173); while an exchange is in flight it holds (R170, D43). -/
def execExchange (frame hdr : List Byte) (count : Word) (s : State) : Host.Outcome State Fault Refusal :=
  if s.xstate = .idle then acceptExchange frame hdr count (s.withResult .started)
  else .next (s.holdOp (.exchange frame hdr count))

/-- REQ_READ (R71; log 6): the block carries the frame in an exchange, with the header and the count of R115. The frame is
not checked for a correct CRC (R173). -/
def execReqRead (dev : Byte) (reg count crc : Word) (s : State) : Host.Outcome State Fault Refusal :=
  if s.xstate = .idle then
    if countOk s.cfg count then
      acceptExchange (frameBytes dev Config.fcRead reg count [] crc) (frameBody dev Config.fcRead reg count []) count
        (s.withResult .started)
    else .refused .countTooLarge
  else .next (s.holdOp (.reqRead dev reg count crc))

/-- REQ_WRITE (R72; log 6): as REQ_READ, with `count` data words and `WRITE_ACK_COUNT` expected words (R115, R74). -/
def execReqWrite (dev : Byte) (reg count : Word) (data : List Word) (crc : Word) (s : State) :
    Host.Outcome State Fault Refusal :=
  if s.xstate = .idle then
    if countOk s.cfg count then
      if data.length = count.toNat then
        acceptExchange (frameBytes dev Config.fcWrite reg count data crc) (frameBody dev Config.fcWrite reg count [])
          s.cfg.writeAckCount (s.withResult .started)
      else .refused .dataLengthMismatch
    else .refused .countTooLarge
  else .next (s.holdOp (.reqWrite dev reg count data crc))

/-- RSP_READ (R73; log 6): the channel returns the frame to a read, and the X_RX step judges it. -/
def execRspRead (dev : Byte) (reg count : Word) (data : List Word) (crc : Word) (s : State) :
    Host.Outcome State Fault Refusal :=
  receiveStep (frameBytes dev Config.fcRead reg count data crc) s

/-- RSP_WRITE (R74; log 6): as RSP_READ, with the write function code. -/
def execRspWrite (dev : Byte) (reg count : Word) (data : List Word) (crc : Word) (s : State) :
    Host.Outcome State Fault Refusal :=
  receiveStep (frameBytes dev Config.fcWrite reg count data crc) s

end Sys2Proof.Machine
end

