-- ==== Sys2Proof/Machine/Interpreter.lean ====
section
/-! DEFINITION. The register interpreter and the topic look-up (43_interpreter.md). -/

namespace Sys2Proof.Machine

/-- `val(a, w)` (R130). -/
def regValue (c : Config) (a w : Word) : Int := if a ∈ c.signed16 then sext16 w else (w.toNat : Int)

/-- A label map with the fallthrough "Offline" (R130, 90_conflicts.md C1). -/
def enumLabel (m : List (Word × String)) (w : Word) : String := (m.lookup w).getD "Offline"

/-- The look-up of R132. Division is exact (R11). -/
def interpret (c : Config) (a w : Word) : PhysicalValue :=
  if a ∈ c.boolOnOff then .label (if w = 1 then "on" else "off")
  else if a ∈ c.boolOnline then .label (if w = 1 then "Online" else "Offline")
  else if a ∈ c.scale10 then .num (mkRat (regValue c a w) 10)
  else if a ∈ c.scale100 then .num (mkRat (regValue c a w) 100)
  else if a ∈ c.scale1 then .num (mkRat (regValue c a w) 1)
  else if a = c.enumBatType then .label (enumLabel c.mapBatType w)
  else if a = c.enumBatVolt then .label (enumLabel c.mapBatVolt w)
  else if a = c.enumEmState then .label (enumLabel c.mapEmState w)
  else .num (mkRat w.toNat 1)

/-- A template's characters with every `<id>` replaced (R133, log 18). -/
def substId (id : List Char) : List Char → List Char
  | '<' :: 'i' :: 'd' :: '>' :: rest => id ++ substId id rest
  | ch :: rest => ch :: substId id rest
  | [] => []

/-- The look-up of R133. -/
def topicOf (c : Config) (a : Word) : Option String :=
  (c.topicLut.lookup a).map fun t => String.ofList (substId c.deviceId.toList t.toList)

/-- INTERP (R132). -/
def execInterp (a w : Word) (s : State) : Host.Outcome State Fault Refusal :=
  .next (s.withResult (.value (interpret s.cfg a w)))

/-- TOPIC (R133). -/
def execTopic (a : Word) (s : State) : Host.Outcome State Fault Refusal :=
  .next (s.withResult (.topic (topicOf s.cfg a)))

end Sys2Proof.Machine
end

