-- ==== Sys2Proof/Machine/Reassembler.lean ====
section
/-! DEFINITION. The multi-word reassembler (44_reassembler.md). -/

namespace Sys2Proof.Machine

/-- The combined value of a pair (R152, R155). A divisor of zero has no stated quotient: FREE VALUE (log 12). -/
def pairValue (c : Config) (p : Word) (x : Long) : PhysicalValue :=
  if p = c.pairUnsigned then
    .num (if c.pairDivUnsigned = 0 then Config.freeQuotient x.toNat else mkRat x.toNat c.pairDivUnsigned)
  else .num (mkRat (sext32 x) 10)

/-- What one word does (R152): the new accumulator, the facts it emits, the outcome. -/
structure RsmStep where
  pend : Five (Option Word)
  facts : List Fact
  outcome : RsmOutcome
  deriving DecidableEq, Repr

/-- The base slot of a high word: `a ≥ 1` and `a - 1 ∈ PAIR_LOW` (R152). -/
def highSlot (c : Config) (a : Word) : Option (Fin 5) := if a = 0 then none else pairSlot c (a - 1)

/-- R152 as a function of the accumulator. -/
def reassemble (c : Config) (pend : Five (Option Word)) (a w : Word) : RsmStep :=
  match pairSlot c a with
  | some i => ⟨pend.set i (some w), [], .held⟩
  | none =>
    match highSlot c a with
    | some i =>
      match pend.get i with
      | some l => ⟨pend.set i none, [⟨a - 1, pairValue c (a - 1) (joinWords w l)⟩], .combined⟩
      | none => ⟨pend, [], .dropped⟩
    | none => ⟨pend, [⟨a, interpret c a w⟩], .passed⟩

/-- The words of a response in address order (R154): the accumulator after them and the facts they emit. -/
def reassembleWords (c : Config) (pend : Five (Option Word)) (a : Word) : List Word → Five (Option Word) × List Fact
  | [] => (pend, [])
  | w :: ws =>
    let r := reassemble c pend a w
    let rest := reassembleWords c r.pend (a + 1) ws
    (rest.1, r.facts ++ rest.2)

/-- The facts of PROCESS_RESP (R154): RSM_BEGIN, the words, RSM_END. -/
def responseFacts (c : Config) (reg : Word) (ws : List Word) : List Fact := (reassembleWords c pendEmpty reg ws).2

/-- PROCESS_RESP on the state (R154): the facts are emitted, and RSM_END leaves the accumulator empty. -/
def State.processResp (s : State) (reg : Word) (ws : List Word) : State :=
  { s.emit (responseFacts s.cfg reg ws) with pend := pendEmpty }

/-- RSM_BEGIN (R151). -/
def execRsmBegin (s : State) : Host.Outcome State Fault Refusal :=
  .next { s with pend := pendEmpty, result := .none }

/-- RSM_WORD (R152). A word that emits holds while the output is full (R57); what may overtake it is the model's choice
(log 9). -/
def execRsmWord (a w : Word) (s : State) : Host.Outcome State Fault Refusal :=
  let r := reassemble s.cfg s.pend a w
  if s.hasRoom r.facts.length then .next ({ s.emit r.facts with pend := r.pend }.withResult (.reassembled r.outcome))
  else .next (s.holdOp (.rsmWord a w))

/-- RSM_END (R153). -/
def execRsmEnd (s : State) : Host.Outcome State Fault Refusal :=
  .next { s with pend := pendEmpty, result := .none }

end Sys2Proof.Machine
end

