-- ==== Sys2Proof/Machine/Scheduler.lean ====
section
/-! DEFINITION. The poll/command scheduler (46_scheduler.md R190 to R196). -/

namespace Sys2Proof.Machine

/-- The exchange of a read state (R191): the frame of ENC_READ, its first eight bytes, the range's count. -/
def issueRead (r : Range) (s : State) : Host.Outcome State Fault Refusal :=
  match readFrame s.cfg r.start r.count with
  | .ok f => acceptExchange f (f.take 8) r.count s
  | .error e => .refused e

/-- The exchange of a command write (R191, R203): one register, one word, `WRITE_ACK_COUNT` expected words. -/
def issueWrite (v : Service) (s : State) : Host.Outcome State Fault Refusal :=
  match writeFrame s.cfg (cmdReg s.cfg v.kind) 1 [v.value] with
  | .ok f => acceptExchange f (f.take 8) s.cfg.writeAckCount s
  | .error e => .refused e

/-- The issue step (R191), with `xstate = X_IDLE`. `svc` is never empty in S_SVC_WRITE (R27); such a state has no step
(log 14). -/
def issueStep (s : State) : Host.Outcome State Fault Refusal :=
  if s.cancel then .next { s with sstate := .halted, svc := none }
  else
    match s.sstate with
    | .telem => issueRead s.cfg.telem s
    | .svcWrite =>
      match s.svc with
      | some v => issueWrite v s
      | none => .next s
    | .svcConfirm => issueRead s.cfg.confirm s
    | .diag => issueRead (s.cfg.diag.get s.rr) s
    | .halted => .next s

/-- The outcome is consumed (R178). -/
def State.consumeOutcome (s : State) : State := { s with xstate := .idle }

/-- A complete step that processes a response starting at `reg` and then does `after`: enabled only when there is room for
every fact it emits (R190). -/
def processStep (reg : Word) (after : State → State) (s : State) : State :=
  if s.hasRoom (responseFacts s.cfg reg s.xwords).length then after (s.consumeOutcome.processResp reg s.xwords) else s

/-- The end of S_TELEM (R192): CMD_TAKE, and the state that follows. -/
def afterTelem (s : State) : State :=
  match firstDirty s.pcmd with
  | some v => { s with svc := some v, sstate := .svcWrite }
  | none => { s with sstate := .diag }

/-- The end of S_SVC_CONFIRM (R194): CMD_RETIRE of the serviced command. -/
def afterConfirm (s : State) : State :=
  match s.svc with
  | some v => { s.retireCommand v.kind v.gen with svc := none, sstate := .diag }
  | none => { s with sstate := .diag }

/-- `(rr + 1) mod 5` (R195). -/
def nextRr (i : Fin 5) : Fin 5 := i + 1

/-- The end of S_DIAG (R195). -/
def afterDiag (s : State) : State := { s with rr := nextRr s.rr, sstate := .telem }

/-- The complete step on X_OK (R192 to R195). -/
def completeOk (s : State) : State :=
  match s.sstate with
  | .telem => processStep s.cfg.telem.start afterTelem s
  | .svcWrite => { s.consumeOutcome with sstate := .svcConfirm }
  | .svcConfirm => processStep s.cfg.confirm.start afterConfirm s
  | .diag => processStep (s.cfg.diag.get s.rr).start afterDiag s
  | .halted => s

/-- The complete step on X_CANCELLED (R196). -/
def completeCancelled (s : State) : State := { s.consumeOutcome with sstate := .halted, svc := none }

/-- The scheduler's turn (R190): issue in X_IDLE, complete in X_OK and X_CANCELLED, no step while the exchange runs and
none at all in S_HALTED. -/
def schedulerStep (s : State) : Host.Outcome State Fault Refusal :=
  if s.sstate = .halted then .next s
  else
    match s.xstate with
    | .idle => issueStep s
    | .tx => .next s
    | .rx => .next s
    | .ok => .next (completeOk s)
    | .cancelled => .next (completeCancelled s)

end Sys2Proof.Machine
end

