-- ==== Sys2Proof/Machine/Dispatch.lean ====
section
/-! DEFINITION. One arm per instruction. -/

namespace Sys2Proof.Machine

def exec (i : Instr) (s : State) : Host.Outcome State Fault Refusal :=
  match i with
  | .crcInit => Sys2Proof.Machine.execCrcInit s
  | .crcByte b => Sys2Proof.Machine.execCrcByte b s
  | .encRead reg count => Sys2Proof.Machine.execEncRead reg count s
  | .encWrite reg count data => Sys2Proof.Machine.execEncWrite reg count data s
  | .decResp raw hdr count => Sys2Proof.Machine.execDecResp raw hdr count s
  | .interp a w => Sys2Proof.Machine.execInterp a w s
  | .topic a => Sys2Proof.Machine.execTopic a s
  | .rsmBegin => Sys2Proof.Machine.execRsmBegin s
  | .rsmWord a w => Sys2Proof.Machine.execRsmWord a w s
  | .rsmEnd => Sys2Proof.Machine.execRsmEnd s
  | .exchange frame hdr count => Sys2Proof.Machine.execExchange frame hdr count s
  | .cmdPost topic payload => Sys2Proof.Machine.execCmdPost topic payload s
  | .cmdTake => Sys2Proof.Machine.execCmdTake s
  | .cmdRetire kind gen => Sys2Proof.Machine.execCmdRetire kind gen s
  | .reqRead dev reg count crc => Sys2Proof.Machine.execReqRead dev reg count crc s
  | .reqWrite dev reg count data crc => Sys2Proof.Machine.execReqWrite dev reg count data crc s
  | .rspRead dev reg count data crc => Sys2Proof.Machine.execRspRead dev reg count data crc s
  | .rspWrite dev reg count data crc => Sys2Proof.Machine.execRspWrite dev reg count data crc s

end Sys2Proof.Machine
end

