-- ==== Sys2Proof/Machine/Turns.lean ====
section
/-! DEFINITION. What one turn of an agent does (60_exceptions.md R230), and where the next turn comes from (log 3). -/

namespace Sys2Proof.Machine

/-- The next turn and the state without it: the oldest of `turns`, or a free turn when there is none (log 3). -/
def takeTurn (s : State) : Turn × State :=
  match s.turns with
  | t :: rest => (t, { s with turns := rest })
  | [] => (Config.freeTurn s.draws, { s with draws := s.draws + 1 })

/-- The refusal of an input that is no instruction (R78, R80). -/
def refusalOf : DecodeError → Refusal
  | .reservedOp => .reservedOp
  | .reservedKind => .reservedKind
  | .notAFrame => .notAFrame

/-- An input that decodes is executed. Bytes a read returns are judged whatever they are (R172, R174); any other input that
does not decode is refused. -/
def inputStep (x : Input) (s : State) : Host.Outcome State Fault Refusal :=
  match decode x with
  | .ok i => exec i s
  | .error e =>
    match x with
    | .response raw => receiveStep raw s
    | .op _ => .refused (refusalOf e)
    | .request _ => .refused (refusalOf e)

/-- The issuer that has waited longest tries again. That the port goes on taking other operations meanwhile, and that the
operation then finds the state as they left it, is the model's choice (log 9). -/
def resumeStep (s : State) : Host.Outcome State Fault Refusal :=
  match s.waiting with
  | [] => .next s
  | i :: rest => exec i (s.withWaiting rest)

/-- One turn. -/
def turnStep (t : Turn) (s : State) : Host.Outcome State Fault Refusal :=
  match t with
  | .input x => inputStep x s
  | .chanWrite ok => .next (sendStep ok s)
  | .readFail => .next (readFailStep s)
  | .scheduler => schedulerStep s
  | .resume => resumeStep s
  | .consume => .next s.consumeFact
  | .cancelIn => .next s.raiseCancel
  | .reset => .next s.pullReset

end Sys2Proof.Machine
end

