-- ==== Sys2Proof/Machine/Step.lean ====
section
/-! DEFINITION. One step of the machine: one turn of one agent, atomic (20_memory.md R59); and how the host places an
instruction where the very next step takes it (log 4). -/

namespace Sys2Proof.Machine

/-- One step. -/
def step (s : State) : Host.Outcome State Fault Refusal := turnStep (takeTurn s).1 (takeTurn s).2

/-- The state whose next turn presents the opcode-table word `w` of `nbits` bits. -/
def State.withFetchWord (s : State) (nbits w : Nat) : State :=
  { s with turns := .input (tableInput nbits w) :: s.turns }

end Sys2Proof.Machine
end

