-- ==== Sys2Proof/Safety.lean ====
section
/-! DEFINITION. The terms claims are stated in: the invariant of the block, which operations an issuer can wait with, the
value a command register may hold, and runs of operations and of turns. -/

namespace Sys2Proof.Machine

/-- The operations that hold (R170, R57): the ones that start an exchange and the one that emits. -/
def canWait : Instr → Bool
  | .exchange _ _ _ => true
  | .reqRead _ _ _ _ => true
  | .reqWrite _ _ _ _ _ => true
  | .rsmWord _ _ => true
  | _ => false

/-- The values CMD_POST can have stored for a kind (R24, R200, R201). -/
def commandValueOk (c : Config) : CmdKind → Word → Bool
  | .em, v => decide (v = c.onValue) || decide (v = c.offValue)
  | .bypass, v => decide (v = c.onValue) || decide (v = c.offValue)
  | .pl, v => decide (v.toNat ≤ Config.plMax)

/-- The invariant every step keeps. Its clauses `frame`, `header` and `count` speak of registers that the spec leaves
unspecified at reset; there they hold by the model's choice of their values (log 11). -/
structure Inv (s : State) : Prop where
  /-- R20: the request frame fits its register. -/
  frame : s.xframe.length ≤ frameBound s.cfg
  /-- R22: the expected header is eight bytes. -/
  header : s.xhdr.length = 8
  /-- R173: an accepted count is at most `MAX_COUNT`. -/
  count : s.xcnt ≤ s.cfg.maxCount
  /-- R22, R179(b): in X_OK there are `xcnt` words. -/
  words : s.xstate = .ok → s.xwords.length = s.xcnt.toNat
  /-- R27: a command is latched exactly in the two service states. -/
  service : s.svc.isSome = true ↔ s.sstate = .svcWrite ∨ s.sstate = .svcConfirm
  /-- R24, R27: the latched generation is not ahead of its register, and at the same generation the value is the same. -/
  latched : ∀ v, s.svc = some v →
    v.gen ≤ (s.pcmd.get v.kind).gen ∧ (v.gen = (s.pcmd.get v.kind).gen → v.value = (s.pcmd.get v.kind).value)
  /-- R24: a dirty register holds a validated value and has been posted to. -/
  dirty : ∀ k, (s.pcmd.get k).dirty = true →
    commandValueOk s.cfg k (s.pcmd.get k).value = true ∧ 1 ≤ (s.pcmd.get k).gen
  /-- R29: a recorded transport failure has raised cancellation. -/
  failure : s.fault = true → s.cancel = true
  /-- R174: an exchange ends cancelled only under cancellation. -/
  cancelled : s.xstate = .cancelled → s.cancel = true
  /-- R191, R196: the scheduler halts only under cancellation. -/
  halted : s.sstate = .halted → s.cancel = true
  /-- R30: at most `FIFO_DEPTH` facts wait. -/
  room : ∀ d, s.cfg.fifoDepth = some d → s.out.length ≤ d
  /-- R170, R57: only operations that hold wait. -/
  waits : ∀ i ∈ s.waiting, canWait i = true

/-- Operations executed one after the other on the port. -/
def execAll : List Instr → State → Host.Outcome State Fault Refusal
  | [], s => .next s
  | i :: is, s =>
    match exec i s with
    | .next t => execAll is t
    | .fault f => .fault f
    | .refused r => .refused r

/-- Turns taken one after the other. -/
def runTurns : List Turn → State → Host.Outcome State Fault Refusal
  | [], s => .next s
  | t :: ts, s =>
    match turnStep t s with
    | .next s' => runTurns ts s'
    | .fault f => .fault f
    | .refused r => .refused r

/-- The response a device gives to a request header with the words `ws`: header, words, trailer (R73, R116). -/
def responseOf (hdr : List Byte) (ws : List Word) : List Byte := withTrailer (hdr ++ bytesOfWords ws)

/-- The bytes of a string of decimal digits (R201). -/
def digitBytes (ds : List (Fin 10)) : List Byte := ds.map fun d => BitVec.ofNat 8 (0x30 + d.val)

/-- The same block in two states that differ at most in the model's own record of the port and the channel. -/
def sameBlock (s t : State) : Prop := { s with result := t.result, wire := t.wire } = t

end Sys2Proof.Machine
end

