-- ==== Sys2Proof/Certificates/Slice0/Obligations.lean ====
section
/-! DEFINITION. The statements for the provers. -/

open Sys2Proof Sys2Proof.Machine

/-! ## Encoding -/

/-- Every instruction survives its encoding, with every operand at every value (R70 to R77). -/
def Obligations.DecodeOfEncodeIsTheInstruction : Prop :=
  ∀ i : Instr, decode (encode i) = .ok i

/-- A byte string that decodes as a frame is the encoding of what it decodes to, so no bit of a frame is dropped or read
twice (R70 to R74). -/
def Obligations.EncodeOfDecodedFrameIsTheFrame : Prop :=
  ∀ (bs : List Byte) (i : Instr),
    (decode (.request bs) = .ok i → encode i = .request bs) ∧
    (decode (.response bs) = .ok i → encode i = .response bs)

/-- Words written out from the tables of R77 and R70 decode to what they stand for. -/
def Obligations.WrittenOutWordsDecode : Prop :=
  decode (.op { op := 0x2, b := 0xA5 }) = .ok (.crcByte 0xA5) ∧
  decode (.op { op := 0x4, reg := 0x0202, count := 1, data := [1600] }) = .ok (.encWrite 0x0202 1 [1600]) ∧
  decode (.op { op := 0x6, a := 0x0100, w := 123 }) = .ok (.interp 0x0100 123) ∧
  decode (.op { op := 0x9, a := 0x0102, w := 0xFFFF }) = .ok (.rsmWord 0x0102 0xFFFF) ∧
  decode (.op { op := 0xE, kind := 2, gen := 5 }) = .ok (.cmdRetire .pl 5) ∧
  decode (.request [0xA5, 0x5A, 0x01, 0x03, 0x01, 0x00, 0x00, 0x0C, 0x34, 0x61]) = .ok (.reqRead 0x01 0x0100 12 0x6134) ∧
  decode (.response [0xA5, 0x5A, 0x01, 0x03, 0x04, 0x00, 0x00, 0x02, 0x00, 0x01, 0x00, 0x03, 0xE7, 0xD1]) =
    .ok (.rspRead 0x01 0x0400 2 [1, 3] 0xD1E7)

/-- R78: op codes `0x0` and `0xF` are refused, whatever the operand lines carry and in every state. -/
def Obligations.ReservedOpCodesAreRefused : Prop :=
  ∀ (s : State) (p : PortWord), p.op = 0x0 ∨ p.op = 0xF → turnStep (.input (.op p)) s = .refused .reservedOp

/-- The codes of the enumerated values, and the refusal of command kind 3 (R79). -/
def Obligations.EnumeratedCodesAreTheTables : Prop :=
  [CmdKind.em, .bypass, .pl].map encodeKind = [0, 1, 2] ∧
  (∀ ws, [DecResult.ok ws, .lengthError, .headerMismatch, .checksumError].map decCode = [0, 1, 2, 3]) ∧
  [XState.idle, .tx, .rx, .ok, .cancelled].map xstateCode = [0, 1, 2, 3, 4] ∧
  [SState.telem, .svcWrite, .svcConfirm, .diag, .halted].map sstateCode = [0, 1, 2, 3, 4] ∧
  [RsmOutcome.held, .combined, .dropped, .passed].map rsmCode = [0, 1, 2, 3] ∧
  [PostResult.accepted, .rejected].map postCode = [0, 1] ∧
  (∀ x : XState, (xstateCode x).toNat ≤ 4) ∧ (∀ x : SState, (sstateCode x).toNat ≤ 4) ∧
  (∀ (s : State) (p : PortWord), p.op = 0xE → p.kind = 3 → turnStep (.input (.op p)) s = .refused .reservedKind)

/-- The step runs the decoded instruction: when the next turn presents an input that decodes to `i`, the step is `exec i`
at the state without that turn (log 3, log 4). -/
def Obligations.StepRunsTheDecodedInstruction : Prop :=
  ∀ (s rest : State) (x : Input) (i : Instr),
    takeTurn s = (.input x, rest) → decode x = .ok i → step s = exec i rest

/-! ## CRC-16 generator -/

/-- R100, with the frame: nothing but `crc` (and the port's result lines) changes. -/
def Obligations.CrcInitSetsTheSeed : Prop :=
  ∀ s : State, exec .crcInit s = .next { s with crc := 0xFFFF, result := .none }

/-- R101: XOR into the low byte, then eight rounds; nothing else changes. -/
def Obligations.CrcByteIsEightReflectedRounds : Prop :=
  ∀ (b : Byte) (s : State),
    let round : Word → Word := fun c => if c.getLsbD 0 = true then (c >>> 1) ^^^ 0xA001 else c >>> 1
    let c := round (round (round (round (round (round (round (round (s.crc ^^^ b.setWidth 16))))))))
    exec (.crcByte b) s = .next { s with crc := c, result := .crc c }

/-- R102: the byte-serial sequence leaves `crc = crc16(s)`, and `crc16` of the empty string is the seed. -/
def Obligations.ByteSerialCrcAgreesWithCrc16 : Prop :=
  crc16 [] = 0xFFFF ∧
  ∀ (bs : List Byte) (s : State), ∃ t,
    execAll (.crcInit :: bs.map .crcByte) s = .next t ∧ t.crc = crc16 bs ∧
    { t with crc := s.crc, result := s.result } = s

/-- R104: the generator ends at zero over any string followed by its trailer, and such a string passes the check of R103. -/
def Obligations.CrcOverTrailerIsZero : Prop :=
  ∀ p : List Byte,
    let r := p ++ le16 (crc16 p)
    let n := r.length
    crc16 r = 0 ∧ (r.getD (n - 2) 0).setWidth 16 ||| ((r.getD (n - 1) 0).setWidth 16 <<< 8) = crc16 (r.take (n - 2))

/-! ## Frame codec -/

/-- R111 with the layout of R71: the ten bytes, the refusal, and no other change of state. -/
def Obligations.EncReadBuildsTheReadRequest : Prop :=
  ∀ (reg count : Word) (s : State),
    let h : List Byte := [0xA5, 0x5A, s.cfg.devAddr, 0x03, hi reg, lo reg, hi count, lo count]
    exec (.encRead reg count) s =
      if count.toNat > s.cfg.maxCount.toNat then .refused .countTooLarge
      else .next { s with result := .frame (h ++ [lo (crc16 h), hi (crc16 h)]) }

/-- R112 with the layout of R72: the CRC covers header and data, there is no byte count, and the two refusals. -/
def Obligations.EncWriteBuildsTheWriteRequest : Prop :=
  ∀ (reg count : Word) (data : List Word) (s : State),
    let h : List Byte := [0xA5, 0x5A, s.cfg.devAddr, 0x10, hi reg, lo reg, hi count, lo count]
    let b := h ++ (data.map fun d => [hi d, lo d]).flatten
    exec (.encWrite reg count data) s =
      if count.toNat > s.cfg.maxCount.toNat then .refused .countTooLarge
      else if data.length ≠ count.toNat then .refused .dataLengthMismatch
      else .next { s with result := .frame (b ++ [lo (crc16 b), hi (crc16 b)]) }

/-- R113, with the words read by index: the refusal, the three checks in their order, the words, and no other change of
state. -/
def Obligations.DecRespChecksInOrderAndYieldsWords : Prop :=
  ∀ (raw hdr : List Byte) (count : Word) (s : State),
    let L := 10 + 2 * count.toNat
    let r := raw.take L
    let answer : DecResult :=
      if raw.length < L then .lengthError
      else if r.take 8 ≠ hdr then .headerMismatch
      else if (r.getD (L - 2) 0).setWidth 16 ||| ((r.getD (L - 1) 0).setWidth 16 <<< 8) ≠ crc16 (r.take (L - 2)) then
        .checksumError
      else .ok ((List.range count.toNat).map fun i =>
        ((r.getD (8 + 2 * i) 0).setWidth 16 <<< 8) ||| (r.getD (9 + 2 * i) 0).setWidth 16)
    exec (.decResp raw hdr count) s =
      if count.toNat > s.cfg.maxCount.toNat ∨ hdr.length ≠ 8 then .refused .badOperand
      else .next { s with result := .decoded answer }

/-- R116: the response to a read request decodes to its words, whatever follows it. -/
def Obligations.ReadResponseRoundTrip : Prop :=
  ∀ (c : Config) (reg count : Word) (ws : List Word) (t f : List Byte),
    ws.length = count.toNat → readFrame c reg count = .ok f →
    decodeResp c (responseOf (f.take 8) ws) (f.take 8) count = .ok (.ok ws) ∧
    decodeResp c (responseOf (f.take 8) ws ++ t) (f.take 8) count = .ok (.ok ws)

/-- R117: one changed byte of an accepted response. -/
def Obligations.SingleByteMutationIsDetected : Prop :=
  ∀ (c : Config) (resp hdr : List Byte) (count : Word) (ws : List Word) (j : Nat) (b : Byte),
    decodeResp c resp hdr count = .ok (.ok ws) → j < resp.length → b ≠ resp.getD j 0 →
    decodeResp c (resp.set j b) hdr count = .ok
      (if j < 8 then .headerMismatch
       else if j < 10 + 2 * count.toNat then .checksumError
       else .ok ws)

/-! ## Register interpreter -/

/-- R132 under the constraints of R130: INTERP completes on every operand in every state and changes nothing but the result
lines; each class gives its value whatever the order of the tests, and an address of no class passes through. -/
def Obligations.InterpGivesTheClassValue : Prop :=
  ∀ (a w : Word) (s : State),
    let c := s.cfg
    let val : Rat := if a ∈ c.signed16 then (w.toInt : Rat) else (w.toNat : Rat)
    let enum : List (Word × String) → PhysicalValue := fun m => .label ((m.lookup w).getD "Offline")
    ∃ v, exec (.interp a w) s = .next { s with result := .value v } ∧
      (c.wf = true →
        (a ∈ c.boolOnOff → v = .label (if w = 1 then "on" else "off")) ∧
        (a ∈ c.boolOnline → v = .label (if w = 1 then "Online" else "Offline")) ∧
        (a ∈ c.scale10 → v = .num (val / 10)) ∧
        (a ∈ c.scale100 → v = .num (val / 100)) ∧
        (a ∈ c.scale1 → v = .num val) ∧
        (a = c.enumBatType → v = enum c.mapBatType) ∧
        (a = c.enumBatVolt → v = enum c.mapBatVolt) ∧
        (a = c.enumEmState → v = enum c.mapEmState) ∧
        ((∀ l ∈ c.classes, a ∉ l) → v = .num (w.toNat : Rat)))

/-- TOPIC: no entry gives none; in a template with one occurrence of `<id>` it is replaced by `DEVICE_ID`, whatever other
brackets the template holds; a template without `<id>` stays as it is; nothing but the result lines changes (R133). A template
with several `<id>` is the model's choice (log 18) and is not stated. -/
def Obligations.TopicSubstitutesTheDeviceId : Prop :=
  ∀ (a : Word) (s : State),
    let tag : List Char := ['<', 'i', 'd', '>']
    (∃ t, exec (.topic a) s = .next { s with result := .topic t }) ∧
    (s.cfg.topicLut.lookup a = none → exec (.topic a) s = .next { s with result := .topic none }) ∧
    (∀ pre post : List Char, ¬ tag <:+: pre → ¬ tag <:+: post →
      s.cfg.topicLut.lookup a = some (String.ofList (pre ++ tag ++ post)) →
      exec (.topic a) s =
        .next { s with result := .topic (some (String.ofList (pre ++ s.cfg.deviceId.toList ++ post))) }) ∧
    (∀ t : List Char, ¬ tag <:+: t → s.cfg.topicLut.lookup a = some (String.ofList t) →
      exec (.topic a) s = .next { s with result := .topic (some (String.ofList t)) })

/-! ## Reassembler -/

/-- R151 and R153: both clear the accumulator, emit nothing and change nothing else. -/
def Obligations.RsmBeginAndEndClearTheAccumulator : Prop :=
  ∀ s : State,
    exec .rsmBegin s = .next { s with pend := ⟨none, none, none, none, none⟩, result := .none } ∧
    exec .rsmEnd s = .next { s with pend := ⟨none, none, none, none, none⟩, result := .none }

/-- The low-word case of R152, on every state: held, nothing emitted, the other entries kept. -/
def Obligations.RsmWordHoldsALowWord : Prop :=
  ∀ (k : Fin 5) (w : Word) (s : State), s.cfg.wf = true →
    ∃ t, exec (.rsmWord (s.cfg.pairLow.get k) w) s = .next t ∧
      t.pend.get k = some w ∧ (∀ j, j ≠ k → t.pend.get j = s.pend.get j) ∧
      { t with pend := s.pend, result := s.result } = s ∧ t.result = .reassembled .held

/-- The high-word cases of R152, with the arithmetic of R155: with its low word held, one fact at the base address, exact
rational, and the entry cleared; without it, nothing. -/
def Obligations.RsmWordCombinesOrDropsAHighWord : Prop :=
  ∀ (k : Fin 5) (w : Word) (s : State), s.cfg.wf = true →
    let p := s.cfg.pairLow.get k
    (∀ l : Word, s.pend.get k = some l → s.hasRoom 1 = true →
      let x : Nat := w.toNat * 2 ^ 16 + l.toNat
      ∃ t v, exec (.rsmWord (p + 1) w) s = .next t ∧
        (p = s.cfg.pairUnsigned → s.cfg.pairDivUnsigned ≠ 0 → v = .num ((x : Rat) / (s.cfg.pairDivUnsigned : Rat))) ∧
        (p ≠ s.cfg.pairUnsigned → v = .num (((if x < 2 ^ 31 then (x : Int) else (x : Int) - 2 ^ 32 : Int) : Rat) / 10)) ∧
        t.out = s.out ++ [⟨p, v⟩] ∧ t.pend.get k = none ∧ (∀ j, j ≠ k → t.pend.get j = s.pend.get j) ∧
        { t with pend := s.pend, out := s.out, result := s.result } = s ∧ t.result = .reassembled .combined) ∧
    (s.pend.get k = none →
      exec (.rsmWord (p + 1) w) s = .next { s with result := .reassembled .dropped })

/-- The remaining case of R152: a word of no pair goes to the interpreter and comes out as one fact. -/
def Obligations.RsmWordPassesOtherWords : Prop :=
  ∀ (a w : Word) (s : State), s.hasRoom 1 = true →
    (∀ k, a ≠ s.cfg.pairLow.get k) → (∀ k, a ≠ 0 → a - 1 ≠ s.cfg.pairLow.get k) →
    exec (.rsmWord a w) s =
      .next { s with out := s.out ++ [⟨a, interpret s.cfg a w⟩], result := .reassembled .passed }

/-- R57 for the operation port: a word that would emit into a full output waits, with the accumulator and the output as
they were (DEDUCED, log 9). -/
def Obligations.RsmWordWaitsWhileTheOutputIsFull : Prop :=
  ∀ (a w : Word) (s : State), s.hasRoom 1 = false →
    (reassemble s.cfg s.pend a w).outcome = .combined ∨ (reassemble s.cfg s.pend a w).outcome = .passed →
    exec (.rsmWord a w) s = .next { s with waiting := s.waiting ++ [.rsmWord a w], result := .waits }

/-- R154: a response with no pair address gives one fact per word, in address order. Where `reg + n` would pass `0xFFFF`, which
D10 rules out for the configured ranges, the address wraps by the model's choice (log 13), and the facts stand in word order. -/
def Obligations.PlainResponseGivesOneFactPerWord : Prop :=
  ∀ (c : Config) (reg : Word) (ws : List Word),
    (∀ n, n < ws.length → pairSlot c (reg + BitVec.ofNat 16 n) = none ∧ highSlot c (reg + BitVec.ofNat 16 n) = none) →
    responseFacts c reg ws = ws.mapIdx fun n w => ⟨reg + BitVec.ofNat 16 n, interpret c (reg + BitVec.ofNat 16 n) w⟩

/-- R154, R82, R253: the operations RSM_BEGIN, one RSM_WORD per word, RSM_END, run on the port from any state of an
unbounded output, emit the facts of the scheduler's one-step PROCESS_RESP: whatever half pair an earlier response left in
the accumulator has no influence, and none is left. Where
`reg + n` would pass `0xFFFF`, which D10 rules out for the configured ranges, both sides wrap by the model's choice (log 13). -/
def Obligations.ProcessRespEqualsItsExpansion : Prop :=
  ∀ (s : State) (reg : Word) (ws : List Word), s.cfg.fifoDepth = none →
    ∃ t, execAll (.rsmBegin :: (ws.mapIdx fun n w => Instr.rsmWord (reg + BitVec.ofNat 16 n) w) ++ [.rsmEnd]) s = .next t ∧
      t.out = s.out ++ responseFacts s.cfg reg ws ∧ t.pend = ⟨none, none, none, none, none⟩ ∧
      { t with out := s.out, pend := s.pend, result := s.result } = s

/-! ## Arbiter and retry FSM -/

/-- R173, in X_IDLE: the refusal, the latched registers, and no write after cancellation. Of a frame beyond the bound R20 gives
`xframe` it says only that what is latched keeps the bound: the spec states no value there (log 15). -/
def Obligations.ExchangeIsAcceptedWhenIdle : Prop :=
  ∀ (frame hdr : List Byte) (count : Word) (s : State), s.xstate = .idle →
    (count.toNat > s.cfg.maxCount.toNat ∨ hdr.length ≠ 8 → exec (.exchange frame hdr count) s = .refused .badOperand) ∧
    (count.toNat ≤ s.cfg.maxCount.toNat → hdr.length = 8 →
      ∃ x : List Byte, (frame.length ≤ 10 + 2 * s.cfg.maxCount.toNat → x = frame) ∧
        x.length ≤ 10 + 2 * s.cfg.maxCount.toNat ∧
        exec (.exchange frame hdr count) s =
          .next { s with xframe := x, xhdr := hdr, xcnt := count, xwords := [],
                         xstate := if s.cancel = true then .cancelled else .tx, result := .started })

/-- R170, D43, R57 (log 9): while an exchange is in flight or its outcome is not consumed, EXCHANGE and the request frames wait
and no exchange register changes. When an issuer tries again, its operation is executed as if it came anew: EXCHANGE and the
request frames are accepted in X_IDLE, a word of a response is taken when there is room for its fact, and what still cannot be
taken goes on waiting, behind the others; with nobody waiting the turn changes nothing (log 16). What is latched of a frame
beyond the bound of R20 is free within it (log 15). The accepted next states are those of R173 with the header and count of R115,
and of R152 for a word; that a request frame is executed as the exchange that carries it is the model's reading (log 6). -/
def Obligations.ExchangeWaitsWhileBusy : Prop :=
  let starts : Instr → Prop := fun i =>
    (∃ f h n, i = .exchange f h n) ∨ (∃ d r n c, i = .reqRead d r n c) ∨ (∃ d r n ws c, i = .reqWrite d r n ws c)
  (∀ (i : Instr) (s : State), s.xstate ≠ .idle → starts i →
    exec i s = .next { s with waiting := s.waiting ++ [i], result := .waits }) ∧
  (∀ s : State, s.waiting = [] → turnStep .resume s = .next s) ∧
  ∀ (i : Instr) (rest : List Instr) (s : State), s.waiting = i :: rest →
    let st : XState := if s.cancel = true then .cancelled else .tx
    turnStep .resume s = exec i { s with waiting := rest } ∧
    (s.xstate ≠ .idle → starts i →
      turnStep .resume s = .next { s with waiting := rest ++ [i], result := .waits }) ∧
    (∀ frame hdr count, i = .exchange frame hdr count → s.xstate = .idle → count ≤ s.cfg.maxCount → hdr.length = 8 →
      ∃ x : List Byte, (frame.length ≤ 10 + 2 * s.cfg.maxCount.toNat → x = frame) ∧
        x.length ≤ 10 + 2 * s.cfg.maxCount.toNat ∧
        turnStep .resume s =
          .next { s with waiting := rest, xframe := x, xhdr := hdr, xcnt := count, xwords := [], xstate := st,
                         result := .started }) ∧
    (∀ dev reg count crc, i = .reqRead dev reg count crc → s.xstate = .idle → count ≤ s.cfg.maxCount →
      let f : List Byte := [0xA5, 0x5A, dev, 0x03, hi reg, lo reg, hi count, lo count, lo crc, hi crc]
      turnStep .resume s =
        .next { s with waiting := rest, xframe := f, xhdr := f.take 8, xcnt := count, xwords := [], xstate := st,
                       result := .started }) ∧
    (∀ dev reg count data crc, i = .reqWrite dev reg count data crc → s.xstate = .idle → count ≤ s.cfg.maxCount →
      data.length = count.toNat → s.cfg.writeAckCount ≤ s.cfg.maxCount →
      let f : List Byte := [0xA5, 0x5A, dev, 0x10, hi reg, lo reg, hi count, lo count] ++
        (data.map fun d => [hi d, lo d]).flatten ++ [lo crc, hi crc]
      turnStep .resume s =
        .next { s with waiting := rest, xframe := f, xhdr := f.take 8, xcnt := s.cfg.writeAckCount, xwords := [],
                       xstate := st, result := .started }) ∧
    (∀ a w, i = .rsmWord a w →
      let r := reassemble s.cfg s.pend a w
      turnStep .resume s =
        if s.hasRoom r.facts.length = true then
          .next { s with waiting := rest, pend := r.pend, out := s.out ++ r.facts, result := .reassembled r.outcome }
        else .next { s with waiting := rest ++ [i], result := .waits })

/-- R115, R173 (log 6): in X_IDLE a request frame is carried in an exchange with its own first eight bytes as the expected
header, and its count, for a write `WRITE_ACK_COUNT`, as the expected count; a count above `MAX_COUNT` and a data length other
than the count are refused (R80, R112), and so is a `WRITE_ACK_COUNT` above `MAX_COUNT` (R173; log 22). -/
def Obligations.RequestFrameStartsItsExchange : Prop :=
  ∀ (dev : Byte) (reg count crc : Word) (data : List Word) (s : State), s.xstate = .idle →
    let st : XState := if s.cancel = true then .cancelled else .tx
    let fr : List Byte := [0xA5, 0x5A, dev, 0x03, hi reg, lo reg, hi count, lo count, lo crc, hi crc]
    let fw : List Byte := [0xA5, 0x5A, dev, 0x10, hi reg, lo reg, hi count, lo count] ++
      (data.map fun d => [hi d, lo d]).flatten ++ [lo crc, hi crc]
    exec (.reqRead dev reg count crc) s =
      (if count.toNat > s.cfg.maxCount.toNat then .refused .countTooLarge
       else .next { s with xframe := fr, xhdr := fr.take 8, xcnt := count, xwords := [], xstate := st,
                           result := .started }) ∧
    exec (.reqWrite dev reg count data crc) s =
      (if count.toNat > s.cfg.maxCount.toNat then .refused .countTooLarge
       else if data.length ≠ count.toNat then .refused .dataLengthMismatch
       else if s.cfg.writeAckCount.toNat > s.cfg.maxCount.toNat then .refused .badOperand
       else .next { s with xframe := fw, xhdr := fw.take 8, xcnt := s.cfg.writeAckCount, xwords := [], xstate := st,
                           result := .started })

/-- R174 (log 6): a response frame read in X_RX ends the exchange when DEC_RESP accepts it and otherwise makes it retry;
outside X_RX it changes nothing. -/
def Obligations.ResponseFrameIsJudgedInRx : Prop :=
  ∀ (dev : Byte) (reg count crc : Word) (data : List Word) (s : State),
    let judge : List Byte → Host.Outcome State Fault Refusal := fun raw =>
      match parseResponse raw s.xhdr s.xcnt with
      | .ok ws => .next { s with xwords := ws, xstate := .ok }
      | _ => .next { s with xstate := .tx }
    let body : Byte → List Byte := fun fc => [0xA5, 0x5A, dev, fc, hi reg, lo reg, hi count, lo count] ++
      (data.map fun d => [hi d, lo d]).flatten ++ [lo crc, hi crc]
    (s.xstate = .rx → s.xhdr.length = 8 → s.xcnt ≤ s.cfg.maxCount →
      exec (.rspRead dev reg count data crc) s = judge (body 0x03) ∧
      exec (.rspWrite dev reg count data crc) s = judge (body 0x10)) ∧
    (s.xstate ≠ .rx →
      exec (.rspRead dev reg count data crc) s = .next s ∧ exec (.rspWrite dev reg count data crc) s = .next s)

/-- R174: the rows of X_TX and X_RX, each with its whole next state, and the consumption of an outcome. -/
def Obligations.ExchangeFsmFollowsItsTable : Prop :=
  ∀ s : State,
    (s.xstate = .tx → s.cancel = true → ∀ ok, turnStep (.chanWrite ok) s = .next { s with xstate := .cancelled }) ∧
    (s.xstate = .tx → s.cancel = false →
      turnStep (.chanWrite true) s = .next { s with wire := s.wire ++ [s.xframe], xstate := .rx }) ∧
    (s.xstate = .tx → s.cancel = false →
      turnStep (.chanWrite false) s = .next { s with cancel := true, fault := true, xstate := .cancelled }) ∧
    (s.xstate = .rx → turnStep .readFail s = .next { s with cancel := true, fault := true, xstate := .cancelled }) ∧
    (s.xstate = .rx → ∀ raw ws, decodeResp s.cfg raw s.xhdr s.xcnt = .ok (.ok ws) →
      turnStep (.input (.response raw)) s = .next { s with xwords := ws, xstate := .ok }) ∧
    (s.xstate = .rx → ∀ raw e, decodeResp s.cfg raw s.xhdr s.xcnt = .ok e → (∀ ws, e ≠ .ok ws) →
      turnStep (.input (.response raw)) s = .next { s with xstate := .tx }) ∧
    (s.xstate = .ok ∨ s.xstate = .cancelled → s.sstate ≠ .halted → s.cfg.fifoDepth = none →
      ∃ t, turnStep .scheduler s = .next t ∧ t.xstate = .idle ∧ t.xwords = s.xwords)

/-- R179(a), R171, R175: every step of the machine writes to the channel only in X_TX, with `cancel` clear, the whole of
`xframe`, and then reads; it writes nothing otherwise. -/
def Obligations.ChannelWritesOnlyFromTx : Prop :=
  ∀ s t : State, step s = .next t →
    t.wire = s.wire ∨
    (s.xstate = .tx ∧ s.cancel = false ∧ t.wire = s.wire ++ [s.xframe] ∧ t.xstate = .rx ∧ t.xframe = s.xframe)

/-- R179(a), R177: but for the reset input, an exchange in flight keeps its frame, header and count, and leaves X_TX and X_RX
only for X_OK or X_CANCELLED. -/
def Obligations.ExchangeInFlightKeepsItsRequest : Prop :=
  ∀ s t : State, step s = .next t → (takeTurn s).1 ≠ .reset → s.xstate = .tx ∨ s.xstate = .rx →
    t.xframe = s.xframe ∧ t.xhdr = s.xhdr ∧ t.xcnt = s.xcnt ∧ t.xstate ≠ .idle

/-- R177: there is no retry bound: for every `n` a channel that answers nothing keeps the exchange alive for `n` attempts,
each writing the same frame. -/
def Obligations.RetryHasNoBound : Prop :=
  ∀ (n : Nat) (s : State), s.xstate = .tx → s.cancel = false → s.xhdr.length = 8 → s.xcnt ≤ s.cfg.maxCount →
    runTurns (List.replicate n [Turn.chanWrite true, .input (.response [])]).flatten s =
      .next { s with wire := s.wire ++ List.replicate n s.xframe }

/-- R221, R176: a failed write or read raises `cancel` and `fault`, ends the exchange with X_CANCELLED, and the scheduler's
next step halts. -/
def Obligations.TransportFailureHaltsTheBlock : Prop :=
  ∀ (s : State) (t : Turn), s.sstate ≠ .halted →
    (s.xstate = .tx ∧ s.cancel = false ∧ t = .chanWrite false) ∨ (s.xstate = .rx ∧ t = .readFail) →
    turnStep t s = .next { s with cancel := true, fault := true, xstate := .cancelled } ∧
    runTurns [t, .scheduler] s =
      .next { s with cancel := true, fault := true, xstate := .idle, sstate := .halted, svc := none }

/-- R222, R28: `cancel_in` sets `cancel` in one step of any state and changes nothing else; no step but reset clears `cancel`
or `fault`; and `cancel` rises only by the cancellation source or with a transport failure. -/
def Obligations.CancelIsStickyAndHasTwoCauses : Prop :=
  (∀ s : State, turnStep .cancelIn s = .next { s with cancel := true }) ∧
  ∀ s t : State, step s = .next t →
    ((takeTurn s).1 ≠ .reset → (s.cancel = true → t.cancel = true) ∧ (s.fault = true → t.fault = true)) ∧
    (s.cancel = false → t.cancel = true → (takeTurn s).1 = .cancelIn ∨ t.fault = true)

/-- R179(c): from a step at which `cancel = 1`, any run without reset writes nothing to the channel. -/
def Obligations.NoChannelWriteAfterCancellation : Prop :=
  ∀ (ts : List Turn) (s t : State), s.cancel = true → (∀ x ∈ ts, x ≠ .reset) → runTurns ts s = .next t →
    t.wire = s.wire ∧ t.cancel = true

/-! ## Scheduler -/

/-- R191: cancellation first; otherwise the state's own exchange, with the frame, header and count of its range or its
command. -/
def Obligations.IssueStepStartsTheStatesExchange : Prop :=
  ∀ s : State, s.xstate = .idle → s.sstate ≠ .halted →
    (s.cancel = true → turnStep .scheduler s = .next { s with sstate := .halted, svc := none }) ∧
    (s.cancel = false →
      (∀ r : Range, r.count ≤ s.cfg.maxCount →
        (s.sstate = .telem ∧ r = s.cfg.telem) ∨ (s.sstate = .svcConfirm ∧ r = s.cfg.confirm) ∨
          (s.sstate = .diag ∧ r = s.cfg.diag.get s.rr) →
        let h : List Byte := [0xA5, 0x5A, s.cfg.devAddr, 0x03, hi r.start, lo r.start, hi r.count, lo r.count]
        turnStep .scheduler s =
          .next { s with xframe := h ++ le16 (crc16 h), xhdr := h, xcnt := r.count, xwords := [], xstate := .tx }) ∧
      (∀ v : Service, s.sstate = .svcWrite → s.svc = some v → 1 ≤ s.cfg.maxCount → s.cfg.writeAckCount ≤ s.cfg.maxCount →
        let g : Word := match v.kind with | .em => s.cfg.cmdRegEm | .bypass => s.cfg.cmdRegBypass | .pl => s.cfg.cmdRegPl
        let h : List Byte := [0xA5, 0x5A, s.cfg.devAddr, 0x10, hi g, lo g, 0, 1]
        let b := h ++ [hi v.value, lo v.value]
        turnStep .scheduler s =
          .next { s with xframe := b ++ le16 (crc16 b), xhdr := h, xcnt := s.cfg.writeAckCount, xwords := [],
                         xstate := .tx }))

/-- The waiting clauses of R190 and R57: while the exchange runs, and in S_HALTED, the scheduler has no step; a complete step
that lacks room for its facts holds. The spec says that such a step does not exist; that the scheduler's turn then leaves the
state as it is, is the model's reading (log 16). -/
def Obligations.SchedulerWaitsForTheExchangeAndForRoom : Prop :=
  ∀ s : State,
    (s.xstate = .tx ∨ s.xstate = .rx ∨ s.sstate = .halted → turnStep .scheduler s = .next s) ∧
    (∀ r : Range, s.xstate = .ok →
      (s.sstate = .telem ∧ r = s.cfg.telem) ∨ (s.sstate = .svcConfirm ∧ r = s.cfg.confirm) ∨
        (s.sstate = .diag ∧ r = s.cfg.diag.get s.rr) →
      s.hasRoom (responseFacts s.cfg r.start s.xwords).length = false → turnStep .scheduler s = .next s)

/-- R192: the telemetry response is processed, and the first dirty command, if any, is latched for service. -/
def Obligations.TelemetryCompletionTakesACommand : Prop :=
  ∀ s : State, s.sstate = .telem → s.xstate = .ok →
    let fs := responseFacts s.cfg s.cfg.telem.start s.xwords
    s.hasRoom fs.length = true →
    turnStep .scheduler s =
      match firstDirty s.pcmd with
      | some v => .next { s with xstate := .idle, out := s.out ++ fs, pend := ⟨none, none, none, none, none⟩,
                                 svc := some v, sstate := .svcWrite }
      | none => .next { s with xstate := .idle, out := s.out ++ fs, pend := ⟨none, none, none, none, none⟩,
                               sstate := .diag }

/-- R193: the write's completion leads to the confirmation read and gives no facts. -/
def Obligations.WriteCompletionLeadsToConfirmation : Prop :=
  ∀ s : State, s.sstate = .svcWrite → s.xstate = .ok →
    turnStep .scheduler s = .next { s with xstate := .idle, sstate := .svcConfirm }

/-- R194: the confirmation's completion retires the serviced command by compare-and-swap on its generation. -/
def Obligations.ConfirmationCompletionRetiresTheCommand : Prop :=
  ∀ (s : State) (v : Service), s.sstate = .svcConfirm → s.xstate = .ok → s.svc = some v →
    let fs := responseFacts s.cfg s.cfg.confirm.start s.xwords
    s.hasRoom fs.length = true →
    ∃ t, turnStep .scheduler s = .next t ∧
      { t with pcmd := s.pcmd } = { s with xstate := .idle, out := s.out ++ fs, pend := ⟨none, none, none, none, none⟩,
                                           svc := none, sstate := .diag } ∧
      (t.pcmd.get v.kind).dirty = ((s.pcmd.get v.kind).dirty && decide ((s.pcmd.get v.kind).gen ≠ v.gen)) ∧
      (∀ k, (t.pcmd.get k).value = (s.pcmd.get k).value ∧ (t.pcmd.get k).gen = (s.pcmd.get k).gen) ∧
      (∀ k, k ≠ v.kind → t.pcmd.get k = s.pcmd.get k)

/-- R195: the diagnostic's completion processes the range the counter chose and then advances the counter modulo five. -/
def Obligations.DiagnosticCompletionAdvancesTheCounter : Prop :=
  ∀ s : State, s.sstate = .diag → s.xstate = .ok →
    let fs := responseFacts s.cfg (s.cfg.diag.get s.rr).start s.xwords
    s.hasRoom fs.length = true →
    ∃ t, turnStep .scheduler s = .next t ∧ t.rr.val = (s.rr.val + 1) % 5 ∧
      { t with rr := s.rr } = { s with xstate := .idle, out := s.out ++ fs, pend := ⟨none, none, none, none, none⟩,
                                       sstate := .telem }

/-- R196, R228: a cancelled exchange halts the scheduler in any state, with nothing processed and no command changed; and from
S_HALTED only reset leads away, with no channel write until then, in every state of the invariant. -/
def Obligations.CancellationHaltsUntilReset : Prop :=
  (∀ s : State, s.sstate ≠ .halted → s.xstate = .cancelled →
    turnStep .scheduler s = .next { s with xstate := .idle, sstate := .halted, svc := none }) ∧
  ∀ s t : State, Inv s → s.sstate = .halted → step s = .next t → (takeTurn s).1 ≠ .reset →
    t.sstate = .halted ∧ t.wire = s.wire ∧ t.svc = s.svc ∧ t.rr = s.rr

/-- R204(a), (b): a cycle with no dirty command is one telemetry read and one diagnostic read, and the counter advances. -/
def Obligations.CycleWithoutCommandIsTwoReads : Prop :=
  ∀ (s : State) (w1 w2 : List Word) (f1 f2 : List Byte), s.sstate = .telem → s.xstate = .idle → s.cancel = false →
    firstDirty s.pcmd = none → s.cfg.fifoDepth = none →
    let r2 := s.cfg.diag.get s.rr
    readFrame s.cfg s.cfg.telem.start s.cfg.telem.count = .ok f1 → readFrame s.cfg r2.start r2.count = .ok f2 →
    w1.length = s.cfg.telem.count.toNat → w2.length = r2.count.toNat →
    ∃ t, runTurns [.scheduler, .chanWrite true, .input (.response (responseOf (f1.take 8) w1)), .scheduler,
                   .scheduler, .chanWrite true, .input (.response (responseOf (f2.take 8) w2)), .scheduler] s = .next t ∧
      t.wire = s.wire ++ [f1, f2] ∧ t.sstate = .telem ∧ t.xstate = .idle ∧ t.rr.val = (s.rr.val + 1) % 5 ∧
      t.out = s.out ++ responseFacts s.cfg s.cfg.telem.start w1 ++ responseFacts s.cfg r2.start w2 ∧ t.pcmd = s.pcmd

/-- R203, R204(a), (b), R192 to R194: a cycle with a dirty command writes that command's value to its register, reads the
confirmation, clears the dirty flag, and then reads the diagnostic range. -/
def Obligations.CycleServicesOneCommand : Prop :=
  ∀ (s : State) (v : Service) (w1 w2 w3 ack : List Word) (f1 fw f2 f3 : List Byte),
    s.sstate = .telem → s.xstate = .idle → s.cancel = false →
    firstDirty s.pcmd = some v → s.cfg.fifoDepth = none →
    let r3 := s.cfg.diag.get s.rr
    readFrame s.cfg s.cfg.telem.start s.cfg.telem.count = .ok f1 →
    writeFrame s.cfg (cmdReg s.cfg v.kind) 1 [v.value] = .ok fw → s.cfg.writeAckCount ≤ s.cfg.maxCount →
    readFrame s.cfg s.cfg.confirm.start s.cfg.confirm.count = .ok f2 → readFrame s.cfg r3.start r3.count = .ok f3 →
    w1.length = s.cfg.telem.count.toNat → ack.length = s.cfg.writeAckCount.toNat →
    w2.length = s.cfg.confirm.count.toNat → w3.length = r3.count.toNat →
    ∃ t, runTurns [.scheduler, .chanWrite true, .input (.response (responseOf (f1.take 8) w1)), .scheduler,
                   .scheduler, .chanWrite true, .input (.response (responseOf (fw.take 8) ack)), .scheduler,
                   .scheduler, .chanWrite true, .input (.response (responseOf (f2.take 8) w2)), .scheduler,
                   .scheduler, .chanWrite true, .input (.response (responseOf (f3.take 8) w3)), .scheduler] s = .next t ∧
      t.wire = s.wire ++ [f1, fw, f2, f3] ∧ t.sstate = .telem ∧ t.xstate = .idle ∧ t.svc = none ∧
      (t.pcmd.get v.kind).dirty = false ∧ (∀ k, k ≠ v.kind → t.pcmd.get k = s.pcmd.get k) ∧
      t.rr.val = (s.rr.val + 1) % 5

/-! ## PendingCommand registers -/

/-- R197 with R202, R223: an accepted post stores the value, sets dirty and advances the generation of its own kind only; a
post with a topic that is no command topic or with an invalid payload changes no register. -/
def Obligations.CmdPostAcceptsOrRejects : Prop :=
  ∀ (topic : String) (payload : List Byte) (s : State),
    (∀ (k : CmdKind) (v : Word),
      topic = "solar/ems/" ++ s.cfg.deviceId ++
        (match k with | .em => "/EMS_EM/turn" | .bypass => "/EMS_Bypass/turn" | .pl => "/EMS_Power_Limit/set") →
      validate s.cfg k payload = some v →
      ∃ t, exec (.cmdPost topic payload) s = .next t ∧
        t.pcmd.get k = ⟨true, v, (s.pcmd.get k).gen + 1⟩ ∧ (∀ j, j ≠ k → t.pcmd.get j = s.pcmd.get j) ∧
        { t with pcmd := s.pcmd, result := s.result } = s ∧ t.result = .posted .accepted) ∧
    ((∀ k, route s.cfg topic = some k → validate s.cfg k payload = none) →
      exec (.cmdPost topic payload) s = .next { s with result := .posted .rejected })

/-- R202: the three command topics are routed to their kinds, and no other topic is routed. -/
def Obligations.OnlyTheThreeTopicsAreRouted : Prop :=
  ∀ (c : Config) (topic : String),
    let t1 := "solar/ems/" ++ c.deviceId ++ "/EMS_EM/turn"
    let t2 := "solar/ems/" ++ c.deviceId ++ "/EMS_Bypass/turn"
    let t3 := "solar/ems/" ++ c.deviceId ++ "/EMS_Power_Limit/set"
    (route c topic = some .em ↔ topic = t1) ∧ (route c topic = some .bypass ↔ topic = t2) ∧
    (route c topic = some .pl ↔ topic = t3)

/-- R200: the switch commands accept exactly the two bytes of on and the three bytes of off. -/
def Obligations.SwitchPayloadsAreLiteral : Prop :=
  ∀ (c : Config) (k : CmdKind) (payload : List Byte), k = .em ∨ k = .bypass →
    validate c k payload =
      if payload = [0x6F, 0x6E] then some c.onValue else if payload = [0x6F, 0x66, 0x66] then some c.offValue else none

/-- R201: the power limit accepts exactly the non-empty strings of decimal digits whose value is at most 1600, with that
value, leading zeros included. -/
def Obligations.PowerLimitAcceptsDecimalsUpTo1600 : Prop :=
  ∀ (c : Config) (payload : List Byte),
    (∀ ds : List (Fin 10), ds ≠ [] → payload = digitBytes ds →
      validate c .pl payload =
        if Nat.ofDigits 10 (ds.reverse.map Fin.val) ≤ 1600 then
          some (BitVec.ofNat 16 (Nat.ofDigits 10 (ds.reverse.map Fin.val)))
        else none) ∧
    ((∀ ds : List (Fin 10), ds ≠ [] → payload ≠ digitBytes ds) → validate c .pl payload = none)

/-- R198: the first dirty command in the order EM, BYPASS, PL, and no change of any register. -/
def Obligations.CmdTakeReadsByPriority : Prop :=
  ∀ s : State,
    let t : Option Service :=
      if s.pcmd.em.dirty = true then some ⟨.em, s.pcmd.em.value, s.pcmd.em.gen⟩
      else if s.pcmd.bypass.dirty = true then some ⟨.bypass, s.pcmd.bypass.value, s.pcmd.bypass.gen⟩
      else if s.pcmd.pl.dirty = true then some ⟨.pl, s.pcmd.pl.value, s.pcmd.pl.gen⟩
      else none
    exec .cmdTake s = .next { s with result := .taken t }

/-- R199: clear at the same generation, keep otherwise; `value` and `gen` never change, nor any other register. -/
def Obligations.CmdRetireComparesTheGeneration : Prop :=
  ∀ (k : CmdKind) (g : Nat) (s : State),
    ∃ t, exec (.cmdRetire k g) s = .next t ∧
      (if (s.pcmd.get k).gen = g then
        t.pcmd.get k = ⟨false, (s.pcmd.get k).value, (s.pcmd.get k).gen⟩ ∧ t.result = .retired .cleared
      else t.pcmd.get k = s.pcmd.get k ∧ t.result = .retired .kept) ∧
      (∀ j, j ≠ k → t.pcmd.get j = s.pcmd.get j) ∧ { t with pcmd := s.pcmd, result := s.result } = s

/-- R254, R61: a command posted between the take and the retire of its kind is never lost. -/
def Obligations.PostDuringServiceSurvivesTheRetire : Prop :=
  ∀ (s t : State) (v : Service) (topic : String) (payload : List Byte) (w : Word),
    Inv s → s.svc = some v → route s.cfg topic = some v.kind → validate s.cfg v.kind payload = some w →
    execAll [.cmdPost topic payload, .cmdRetire v.kind v.gen] s = .next t →
    t.pcmd.get v.kind = ⟨true, w, (s.pcmd.get v.kind).gen + 1⟩ ∧ t.result = .retired .kept

/-- R31, R24: but for reset, in every state of the invariant a dirty flag rises only in a step that takes an operation
decoding to CMD_POST, and falls only by a CMD_RETIRE operation or the scheduler's step in S_SVC_CONFIRM. -/
def Obligations.DirtyFlagsHaveOneSetterAndOneClearer : Prop :=
  ∀ (s t : State) (k : CmdKind), Inv s → step s = .next t → (takeTurn s).1 ≠ .reset →
    ((s.pcmd.get k).dirty = false → (t.pcmd.get k).dirty = true →
      ∃ x topic payload, (takeTurn s).1 = .input x ∧ decode x = .ok (.cmdPost topic payload)) ∧
    ((s.pcmd.get k).dirty = true → (t.pcmd.get k).dirty = false →
      (∃ x g, (takeTurn s).1 = .input x ∧ decode x = .ok (.cmdRetire k g)) ∨
      ((takeTurn s).1 = .scheduler ∧ s.sstate = .svcConfirm ∧ s.xstate = .ok))

/-! ## The whole machine -/

/-- R240: the reset values, under every parameter set, of every element for which the spec gives one; and the reset input gives
them in one step from any state, S_HALTED included, and keeps the parameters. -/
def Obligations.ResetGivesTheSpecsValues : Prop :=
  let fresh : State → Prop := fun s =>
    s.sstate = .telem ∧ s.rr.val = 0 ∧ (∀ k, s.pcmd.get k = ⟨false, 0, 0⟩) ∧ (∀ i, s.pend.get i = none) ∧
    s.crc = 0xFFFF ∧ s.xstate = .idle ∧ s.xwords = [] ∧ s.svc = none ∧ s.cancel = false ∧ s.fault = false ∧ s.out = []
  (∀ c : Config, fresh (State.resetWith c) ∧ (State.resetWith c).cfg = c) ∧ fresh State.reset ∧
  ∀ s : State, ∃ t, turnStep .reset s = .next t ∧ fresh t ∧ t.cfg = s.cfg

/-- R242: after reset the scheduler's first step issues the telemetry read, whatever the outside has put in the turn list
behind it. -/
def Obligations.FirstStepAfterResetIssuesTelemetry : Prop :=
  ∀ (c : Config) (ts : List Turn), c.telem.count ≤ c.maxCount →
    ∃ t f, readFrame c c.telem.start c.telem.count = .ok f ∧
      step { State.resetWith c with turns := .scheduler :: ts } = .next t ∧
      t.xframe = f ∧ t.xhdr = f.take 8 ∧ t.xcnt = c.telem.count ∧ t.xstate = .tx ∧ t.sstate = .telem ∧ t.wire = []

/-- The invariant holds after reset under every parameter set. R240 leaves `xframe`, `xhdr` and `xcnt` unspecified: the clauses
of `Inv` about them hold here by the values the model chose (log 11). -/
def Obligations.ResetMeetsTheInvariant : Prop :=
  ∀ c : Config, Inv (State.resetWith c)

/-- Every step keeps the invariant, from every state that has it. For the reset turn, the clauses of `Inv` about `xframe`,
`xhdr` and `xcnt`, which R240 leaves unspecified, hold by the values the model chose (log 11). -/
def Obligations.EveryStepKeepsTheInvariant : Prop :=
  ∀ s t : State, Inv s → step s = .next t → Inv t

/-- R8, R62: no step changes a parameter. -/
def Obligations.NoStepChangesTheParameters : Prop :=
  ∀ s t : State, step s = .next t → t.cfg = s.cfg

/-- R57, R30: the output is a queue: the consumer's turn takes the oldest fact, once, and changes nothing else (with no fact it
changes nothing, log 16); a step appends facts at the end, or takes the oldest, or is the reset. -/
def Obligations.OutputIsAQueue : Prop :=
  (∀ s : State, turnStep .consume s = .next { s with out := s.out.tail }) ∧
  ∀ s t : State, step s = .next t →
    (∃ fs, t.out = s.out ++ fs ∧ s.hasRoom fs.length = true) ∨
    ((takeTurn s).1 = .consume ∧ t.out = s.out.tail) ∨ ((takeTurn s).1 = .reset ∧ t.out = [])

/-- R80, R170: a well-formed instruction is never refused, in any state of the invariant (with `WRITE_ACK_COUNT` inside its
type): it completes, or its issuer waits. -/
def Obligations.WellFormedInstructionsAreNeverRefused : Prop :=
  ∀ (i : Instr) (s : State), Inv s → s.cfg.writeAckCount ≤ s.cfg.maxCount → i.wf s.cfg = true →
    ∃ t, exec i s = .next t ∧ (t.waiting = s.waiting ∨ (canWait i = true ∧ t.waiting = s.waiting ++ [i]))

/-- The model's own record of the port's last result and of the channel's bytes influences nothing: two states of the same
block step to two states of the same block (log 8, log 10). -/
def Obligations.RecordsDoNotInfluenceTheBlock : Prop :=
  ∀ s s' t : State, sameBlock s s' → step s = .next t → ∃ t', step s' = .next t' ∧ sameBlock t t'
end

