-- ==== Sys2Proof/Laws/Bytes.lean ====
section
/-! SUPPORT. Byte order: words and bytes determine each other, and the tail of a frame is its words and its trailer. -/

namespace Sys2Proof

@[simp] theorem joinBytes_hi_lo (w : Word) : joinBytes (hi w) (lo w) = w := by
  apply BitVec.eq_of_getLsbD_eq
  intro i hi16
  simp only [joinBytes, hi, lo, BitVec.getLsbD_or, BitVec.getLsbD_shiftLeft, BitVec.getLsbD_setWidth,
    BitVec.getLsbD_extractLsb']
  by_cases h : i < 8
  · simp [h, hi16]
  · have h8 : i - 8 < 8 := by omega
    have h16 : i - 8 < 16 := by omega
    have he : 8 + (i - 8) = i := by omega
    simp [h, hi16, h8, h16, he]

@[simp] theorem hi_joinBytes (h l : Byte) : hi (joinBytes h l) = h := by
  apply BitVec.eq_of_getLsbD_eq
  intro i hi8
  have h16 : 8 + i < 16 := by omega
  simp [joinBytes, hi, hi8, h16]

@[simp] theorem lo_joinBytes (h l : Byte) : lo (joinBytes h l) = l := by
  apply BitVec.eq_of_getLsbD_eq
  intro i hi8
  have hd : i < 16 := by omega
  simp [joinBytes, lo, hi8, hd]

/-- The value of a joined pair of bytes. -/
theorem joinBytes_toNat (h l : Byte) : (joinBytes h l).toNat = h.toNat * 256 + l.toNat := by
  have hh := h.isLt; have hl := l.isLt
  have e : h.toNat <<< 8 ||| l.toNat = h.toNat * 2 ^ 8 + l.toNat := by
    rw [Nat.shiftLeft_eq, Nat.mul_comm, Nat.two_pow_add_eq_or_of_lt (by omega)]
  simp only [joinBytes, BitVec.toNat_or, BitVec.toNat_shiftLeft, BitVec.toNat_setWidth]
  rw [Nat.mod_eq_of_lt (a := h.toNat) (by omega), Nat.mod_eq_of_lt (a := l.toNat) (by omega),
    Nat.mod_eq_of_lt (by rw [Nat.shiftLeft_eq]; omega), e]
  norm_num

@[simp] theorem be16_length (w : Word) : (be16 w).length = 2 := rfl
@[simp] theorem le16_length (w : Word) : (le16 w).length = 2 := rfl

@[simp] theorem bytesOfWords_nil : bytesOfWords [] = [] := rfl
@[simp] theorem bytesOfWords_cons (w : Word) (ws : List Word) : bytesOfWords (w :: ws) = hi w :: lo w :: bytesOfWords ws := rfl

@[simp] theorem bytesOfWords_length (ws : List Word) : (bytesOfWords ws).length = 2 * ws.length := by
  induction ws with
  | nil => rfl
  | cons w ws ih => simp [ih]; omega

@[simp] theorem wordsOfBytes_bytesOfWords (ws : List Word) : wordsOfBytes (bytesOfWords ws) = ws := by
  induction ws with
  | nil => rfl
  | cons w ws ih => simp [wordsOfBytes, ih]

theorem wordsOfBytes_length (bs : List Byte) : (wordsOfBytes bs).length = bs.length / 2 := by
  induction bs using wordsOfBytes.induct with
  | case1 h l rest ih => simp [wordsOfBytes, ih]; omega
  | case2 bs hne =>
    match bs, hne with
    | [], _ => rfl
    | [a], _ => simp [wordsOfBytes]
    | h :: l :: rest, hne => exact absurd rfl (hne h l rest)

/-- Word `i` of a byte string is its bytes `2i` and `2i+1`. -/
theorem wordsOfBytes_getElem? (bs : List Byte) (i : Nat) (h : 2 * i + 1 < bs.length) :
    (wordsOfBytes bs)[i]? = some (joinBytes (bs.getD (2 * i) 0) (bs.getD (2 * i + 1) 0)) := by
  induction bs using wordsOfBytes.induct generalizing i with
  | case1 a b rest ih =>
    cases i with
    | zero => simp [wordsOfBytes]
    | succ n =>
      have e1 : 2 * (n + 1) = 2 * n + 1 + 1 := by omega
      have := ih n (by simp at h; omega)
      simp only [wordsOfBytes, List.getElem?_cons_succ, this, e1, List.getD_cons_succ]
  | case2 bs hne =>
    match bs, h, hne with
    | a :: b :: rest, _, hne => exact absurd rfl (hne a b rest)

@[simp] theorem splitTail_bytesOfWords (ws : List Word) (c : Word) :
    splitTail (bytesOfWords ws ++ le16 c) = some (ws, c) := by
  induction ws with
  | nil => simp [splitTail, le16]
  | cons w ws ih =>
    have hne : ∀ b, bytesOfWords ws ++ le16 c ≠ [b] := by
      intro b hb
      have := congrArg List.length hb
      simp at this
    have hne0 : bytesOfWords ws ++ le16 c ≠ [] := by simp [le16]
    rw [bytesOfWords_cons, List.cons_append, List.cons_append, splitTail, ih]
    · simp
    · intro h; exact hne0 h

/-- A frame's tail is the bytes of its words and its trailer. -/
theorem splitTail_some {bs : List Byte} {ws : List Word} {c : Word} (h : splitTail bs = some (ws, c)) :
    bs = bytesOfWords ws ++ le16 c := by
  induction bs using splitTail.induct generalizing ws with
  | case1 l h' => simp [splitTail] at h; obtain ⟨rfl, rfl⟩ := h; simp [le16]
  | case2 a b rest hne ws' c' hs ih =>
    rw [splitTail, hs] at h
    · simp at h; obtain ⟨rfl, rfl⟩ := h
      simp [← ih hs]
    · intro hr; exact hne hr
  | case3 a b rest hne hs ih =>
    rw [splitTail, hs] at h
    · simp at h
    · intro hr; exact hne hr
  | case4 bs h1 h2 => 
    match bs, h1, h2 with
    | [], _, _ => simp [splitTail] at h
    | [_], _, _ => simp [splitTail] at h
    | [a, b], h1, _ => exact absurd rfl (h1 a b)
    | a :: b :: d :: rest, _, h2 => exact absurd rfl (h2 a b (d :: rest))

/-- The fields of a frame are read back from its bytes (R70). -/
@[simp] theorem splitFrame_frameBytes (dev fc : Byte) (reg count : Word) (data : List Word) (crc : Word) :
    splitFrame (frameBytes dev fc reg count data crc) = some ⟨dev, fc, reg, count, data, crc⟩ := by
  simp [splitFrame, frameBytes, frameBody, be16]

/-- A byte string with the shape of a frame is the bytes of its fields (R70). -/
theorem splitFrame_some {bs : List Byte} {f : FrameFields} (h : splitFrame bs = some f) :
    bs = frameBytes f.dev f.fc f.reg f.count f.data f.crc := by
  unfold splitFrame at h
  split at h
  · split at h
    · next hm =>
      split at h
      · next ws c ht => cases h; simp [frameBytes, frameBody, be16, hm.1, hm.2, splitTail_some ht]
      · cases h
    · cases h
  · cases h

end Sys2Proof
end

