-- ==== Sys2Proof/Laws/Checksum.lean ====
section
/-! SUPPORT. The checksum: every round, and so every byte step, is injective in the accumulator and in the byte; eight rounds
over an accumulator with an empty low byte are a shift. -/

namespace Sys2Proof

@[simp] theorem crcRounds_zero (c : Word) : crcRounds 0 c = c := rfl
@[simp] theorem crcRounds_succ (n : Nat) (c : Word) : crcRounds (n + 1) c = crcRounds n (crcRound c) := rfl

@[simp] theorem crc16_nil : crc16 [] = 0xFFFF := rfl
theorem crc16_append (p q : List Byte) : crc16 (p ++ q) = q.foldl crcStep (crc16 p) := List.foldl_append

theorem crcPolyR_top : Config.crcPolyR.getLsbD 15 = true := by decide

/-- The top bit of a round's value is the bit shifted out. -/
theorem crcRound_top (c : Word) : (crcRound c).getLsbD 15 = c.getLsbD 0 := by
  unfold crcRound
  split
  · next h => simp [crcPolyR_top, -BitVec.getLsbD_eq_getElem] at h ⊢; exact h
  · next h => simp [-BitVec.getLsbD_eq_getElem] at h ⊢; exact h

theorem crcRound_injective : Function.Injective crcRound := by
  intro c d h
  have h0 : c.getLsbD 0 = d.getLsbD 0 := by rw [← crcRound_top c, ← crcRound_top d, h]
  have hs : c >>> 1 = d >>> 1 := by
    unfold crcRound at h
    rw [h0] at h
    split at h
    · exact (BitVec.xor_left_inj _).mp h
    · exact h
  apply BitVec.eq_of_getLsbD_eq
  intro i hi
  cases i with
  | zero => exact h0
  | succ n =>
    have := congrArg (fun v => v.getLsbD n) hs
    simpa [BitVec.getLsbD_ushiftRight, Nat.add_comm] using this

theorem crcRounds_injective (n : Nat) : Function.Injective (crcRounds n) := by
  induction n with
  | zero => exact fun _ _ h => h
  | succ n ih => exact fun _ _ h => crcRound_injective (ih h)

theorem crcStep_injective_left (b : Byte) : Function.Injective fun c => crcStep c b :=
  fun _ _ h => (BitVec.xor_left_inj _).mp (crcRounds_injective 8 h)

theorem crcStep_injective_right (c : Word) : Function.Injective (crcStep c) := by
  intro a b h
  have hx := (BitVec.xor_right_inj _).mp (crcRounds_injective 8 h)
  have := congrArg (BitVec.setWidth 8) hx
  simpa using this

theorem crcFold_injective (q : List Byte) : Function.Injective fun c => q.foldl crcStep c := by
  induction q with
  | nil => exact fun _ _ h => h
  | cons b q ih => exact fun _ _ h => crcStep_injective_left b (ih h)

/-- A round on an even accumulator is a shift. -/
theorem crcRound_even {c : Word} (h : c.getLsbD 0 = false) : crcRound c = c >>> 1 := by
  unfold crcRound; rw [if_neg (by rw [h]; decide)]

/-- `n` rounds on an accumulator whose low `n` bits are clear are a shift by `n`. -/
theorem crcRounds_shift (n : Nat) (c : Word) (h : ∀ i, i < n → c.getLsbD i = false) : crcRounds n c = c >>> n := by
  induction n generalizing c with
  | zero => simp
  | succ n ih =>
    rw [crcRounds_succ, crcRound_even (h 0 (by omega)), ih]
    · rw [Nat.add_comm, BitVec.shiftRight_add]
    · intro i hi
      have := h (i + 1) (by omega)
      simpa [BitVec.getLsbD_ushiftRight, Nat.add_comm] using this

end Sys2Proof
end

