-- ==== Sys2Proof/Laws/State.lean ====
section
/-! SUPPORT. One lemma per field per named update of the state, so that no later proof unfolds an update. -/

namespace Sys2Proof.Machine

/-! ### `State.withResult` -/

@[simp] theorem State.withResult_crc (s : State) (r : Result) : (s.withResult r).crc = s.crc := rfl
@[simp] theorem State.withResult_xstate (s : State) (r : Result) : (s.withResult r).xstate = s.xstate := rfl
@[simp] theorem State.withResult_xframe (s : State) (r : Result) : (s.withResult r).xframe = s.xframe := rfl
@[simp] theorem State.withResult_xhdr (s : State) (r : Result) : (s.withResult r).xhdr = s.xhdr := rfl
@[simp] theorem State.withResult_xcnt (s : State) (r : Result) : (s.withResult r).xcnt = s.xcnt := rfl
@[simp] theorem State.withResult_xwords (s : State) (r : Result) : (s.withResult r).xwords = s.xwords := rfl
@[simp] theorem State.withResult_pend (s : State) (r : Result) : (s.withResult r).pend = s.pend := rfl
@[simp] theorem State.withResult_pcmd (s : State) (r : Result) : (s.withResult r).pcmd = s.pcmd := rfl
@[simp] theorem State.withResult_sstate (s : State) (r : Result) : (s.withResult r).sstate = s.sstate := rfl
@[simp] theorem State.withResult_rr (s : State) (r : Result) : (s.withResult r).rr = s.rr := rfl
@[simp] theorem State.withResult_svc (s : State) (r : Result) : (s.withResult r).svc = s.svc := rfl
@[simp] theorem State.withResult_cancel (s : State) (r : Result) : (s.withResult r).cancel = s.cancel := rfl
@[simp] theorem State.withResult_fault (s : State) (r : Result) : (s.withResult r).fault = s.fault := rfl
@[simp] theorem State.withResult_out (s : State) (r : Result) : (s.withResult r).out = s.out := rfl
@[simp] theorem State.withResult_cfg (s : State) (r : Result) : (s.withResult r).cfg = s.cfg := rfl
@[simp] theorem State.withResult_result (s : State) (r : Result) : (s.withResult r).result = r := rfl
@[simp] theorem State.withResult_waiting (s : State) (r : Result) : (s.withResult r).waiting = s.waiting := rfl
@[simp] theorem State.withResult_wire (s : State) (r : Result) : (s.withResult r).wire = s.wire := rfl
@[simp] theorem State.withResult_turns (s : State) (r : Result) : (s.withResult r).turns = s.turns := rfl
@[simp] theorem State.withResult_draws (s : State) (r : Result) : (s.withResult r).draws = s.draws := rfl

/-! ### `State.emit` -/

@[simp] theorem State.emit_crc (s : State) (fs : List Fact) : (s.emit fs).crc = s.crc := rfl
@[simp] theorem State.emit_xstate (s : State) (fs : List Fact) : (s.emit fs).xstate = s.xstate := rfl
@[simp] theorem State.emit_xframe (s : State) (fs : List Fact) : (s.emit fs).xframe = s.xframe := rfl
@[simp] theorem State.emit_xhdr (s : State) (fs : List Fact) : (s.emit fs).xhdr = s.xhdr := rfl
@[simp] theorem State.emit_xcnt (s : State) (fs : List Fact) : (s.emit fs).xcnt = s.xcnt := rfl
@[simp] theorem State.emit_xwords (s : State) (fs : List Fact) : (s.emit fs).xwords = s.xwords := rfl
@[simp] theorem State.emit_pend (s : State) (fs : List Fact) : (s.emit fs).pend = s.pend := rfl
@[simp] theorem State.emit_pcmd (s : State) (fs : List Fact) : (s.emit fs).pcmd = s.pcmd := rfl
@[simp] theorem State.emit_sstate (s : State) (fs : List Fact) : (s.emit fs).sstate = s.sstate := rfl
@[simp] theorem State.emit_rr (s : State) (fs : List Fact) : (s.emit fs).rr = s.rr := rfl
@[simp] theorem State.emit_svc (s : State) (fs : List Fact) : (s.emit fs).svc = s.svc := rfl
@[simp] theorem State.emit_cancel (s : State) (fs : List Fact) : (s.emit fs).cancel = s.cancel := rfl
@[simp] theorem State.emit_fault (s : State) (fs : List Fact) : (s.emit fs).fault = s.fault := rfl
@[simp] theorem State.emit_out (s : State) (fs : List Fact) : (s.emit fs).out = s.out ++ fs := rfl
@[simp] theorem State.emit_cfg (s : State) (fs : List Fact) : (s.emit fs).cfg = s.cfg := rfl
@[simp] theorem State.emit_result (s : State) (fs : List Fact) : (s.emit fs).result = s.result := rfl
@[simp] theorem State.emit_waiting (s : State) (fs : List Fact) : (s.emit fs).waiting = s.waiting := rfl
@[simp] theorem State.emit_wire (s : State) (fs : List Fact) : (s.emit fs).wire = s.wire := rfl
@[simp] theorem State.emit_turns (s : State) (fs : List Fact) : (s.emit fs).turns = s.turns := rfl
@[simp] theorem State.emit_draws (s : State) (fs : List Fact) : (s.emit fs).draws = s.draws := rfl

/-! ### `State.holdOp` -/

@[simp] theorem State.holdOp_crc (s : State) (i : Instr) : (s.holdOp i).crc = s.crc := rfl
@[simp] theorem State.holdOp_xstate (s : State) (i : Instr) : (s.holdOp i).xstate = s.xstate := rfl
@[simp] theorem State.holdOp_xframe (s : State) (i : Instr) : (s.holdOp i).xframe = s.xframe := rfl
@[simp] theorem State.holdOp_xhdr (s : State) (i : Instr) : (s.holdOp i).xhdr = s.xhdr := rfl
@[simp] theorem State.holdOp_xcnt (s : State) (i : Instr) : (s.holdOp i).xcnt = s.xcnt := rfl
@[simp] theorem State.holdOp_xwords (s : State) (i : Instr) : (s.holdOp i).xwords = s.xwords := rfl
@[simp] theorem State.holdOp_pend (s : State) (i : Instr) : (s.holdOp i).pend = s.pend := rfl
@[simp] theorem State.holdOp_pcmd (s : State) (i : Instr) : (s.holdOp i).pcmd = s.pcmd := rfl
@[simp] theorem State.holdOp_sstate (s : State) (i : Instr) : (s.holdOp i).sstate = s.sstate := rfl
@[simp] theorem State.holdOp_rr (s : State) (i : Instr) : (s.holdOp i).rr = s.rr := rfl
@[simp] theorem State.holdOp_svc (s : State) (i : Instr) : (s.holdOp i).svc = s.svc := rfl
@[simp] theorem State.holdOp_cancel (s : State) (i : Instr) : (s.holdOp i).cancel = s.cancel := rfl
@[simp] theorem State.holdOp_fault (s : State) (i : Instr) : (s.holdOp i).fault = s.fault := rfl
@[simp] theorem State.holdOp_out (s : State) (i : Instr) : (s.holdOp i).out = s.out := rfl
@[simp] theorem State.holdOp_cfg (s : State) (i : Instr) : (s.holdOp i).cfg = s.cfg := rfl
@[simp] theorem State.holdOp_result (s : State) (i : Instr) : (s.holdOp i).result = .waits := rfl
@[simp] theorem State.holdOp_waiting (s : State) (i : Instr) : (s.holdOp i).waiting = s.waiting ++ [i] := rfl
@[simp] theorem State.holdOp_wire (s : State) (i : Instr) : (s.holdOp i).wire = s.wire := rfl
@[simp] theorem State.holdOp_turns (s : State) (i : Instr) : (s.holdOp i).turns = s.turns := rfl
@[simp] theorem State.holdOp_draws (s : State) (i : Instr) : (s.holdOp i).draws = s.draws := rfl

/-! ### `State.withWaiting` -/

@[simp] theorem State.withWaiting_crc (s : State) (is : List Instr) : (s.withWaiting is).crc = s.crc := rfl
@[simp] theorem State.withWaiting_xstate (s : State) (is : List Instr) : (s.withWaiting is).xstate = s.xstate := rfl
@[simp] theorem State.withWaiting_xframe (s : State) (is : List Instr) : (s.withWaiting is).xframe = s.xframe := rfl
@[simp] theorem State.withWaiting_xhdr (s : State) (is : List Instr) : (s.withWaiting is).xhdr = s.xhdr := rfl
@[simp] theorem State.withWaiting_xcnt (s : State) (is : List Instr) : (s.withWaiting is).xcnt = s.xcnt := rfl
@[simp] theorem State.withWaiting_xwords (s : State) (is : List Instr) : (s.withWaiting is).xwords = s.xwords := rfl
@[simp] theorem State.withWaiting_pend (s : State) (is : List Instr) : (s.withWaiting is).pend = s.pend := rfl
@[simp] theorem State.withWaiting_pcmd (s : State) (is : List Instr) : (s.withWaiting is).pcmd = s.pcmd := rfl
@[simp] theorem State.withWaiting_sstate (s : State) (is : List Instr) : (s.withWaiting is).sstate = s.sstate := rfl
@[simp] theorem State.withWaiting_rr (s : State) (is : List Instr) : (s.withWaiting is).rr = s.rr := rfl
@[simp] theorem State.withWaiting_svc (s : State) (is : List Instr) : (s.withWaiting is).svc = s.svc := rfl
@[simp] theorem State.withWaiting_cancel (s : State) (is : List Instr) : (s.withWaiting is).cancel = s.cancel := rfl
@[simp] theorem State.withWaiting_fault (s : State) (is : List Instr) : (s.withWaiting is).fault = s.fault := rfl
@[simp] theorem State.withWaiting_out (s : State) (is : List Instr) : (s.withWaiting is).out = s.out := rfl
@[simp] theorem State.withWaiting_cfg (s : State) (is : List Instr) : (s.withWaiting is).cfg = s.cfg := rfl
@[simp] theorem State.withWaiting_result (s : State) (is : List Instr) : (s.withWaiting is).result = s.result := rfl
@[simp] theorem State.withWaiting_waiting (s : State) (is : List Instr) : (s.withWaiting is).waiting = is := rfl
@[simp] theorem State.withWaiting_wire (s : State) (is : List Instr) : (s.withWaiting is).wire = s.wire := rfl
@[simp] theorem State.withWaiting_turns (s : State) (is : List Instr) : (s.withWaiting is).turns = s.turns := rfl
@[simp] theorem State.withWaiting_draws (s : State) (is : List Instr) : (s.withWaiting is).draws = s.draws := rfl

/-! ### `State.raiseTransportFailure` -/

@[simp] theorem State.raiseTransportFailure_crc (s : State) : (s.raiseTransportFailure).crc = s.crc := rfl
@[simp] theorem State.raiseTransportFailure_xstate (s : State) : (s.raiseTransportFailure).xstate = .cancelled := rfl
@[simp] theorem State.raiseTransportFailure_xframe (s : State) : (s.raiseTransportFailure).xframe = s.xframe := rfl
@[simp] theorem State.raiseTransportFailure_xhdr (s : State) : (s.raiseTransportFailure).xhdr = s.xhdr := rfl
@[simp] theorem State.raiseTransportFailure_xcnt (s : State) : (s.raiseTransportFailure).xcnt = s.xcnt := rfl
@[simp] theorem State.raiseTransportFailure_xwords (s : State) : (s.raiseTransportFailure).xwords = s.xwords := rfl
@[simp] theorem State.raiseTransportFailure_pend (s : State) : (s.raiseTransportFailure).pend = s.pend := rfl
@[simp] theorem State.raiseTransportFailure_pcmd (s : State) : (s.raiseTransportFailure).pcmd = s.pcmd := rfl
@[simp] theorem State.raiseTransportFailure_sstate (s : State) : (s.raiseTransportFailure).sstate = s.sstate := rfl
@[simp] theorem State.raiseTransportFailure_rr (s : State) : (s.raiseTransportFailure).rr = s.rr := rfl
@[simp] theorem State.raiseTransportFailure_svc (s : State) : (s.raiseTransportFailure).svc = s.svc := rfl
@[simp] theorem State.raiseTransportFailure_cancel (s : State) : (s.raiseTransportFailure).cancel = true := rfl
@[simp] theorem State.raiseTransportFailure_fault (s : State) : (s.raiseTransportFailure).fault = true := rfl
@[simp] theorem State.raiseTransportFailure_out (s : State) : (s.raiseTransportFailure).out = s.out := rfl
@[simp] theorem State.raiseTransportFailure_cfg (s : State) : (s.raiseTransportFailure).cfg = s.cfg := rfl
@[simp] theorem State.raiseTransportFailure_result (s : State) : (s.raiseTransportFailure).result = s.result := rfl
@[simp] theorem State.raiseTransportFailure_waiting (s : State) : (s.raiseTransportFailure).waiting = s.waiting := rfl
@[simp] theorem State.raiseTransportFailure_wire (s : State) : (s.raiseTransportFailure).wire = s.wire := rfl
@[simp] theorem State.raiseTransportFailure_turns (s : State) : (s.raiseTransportFailure).turns = s.turns := rfl
@[simp] theorem State.raiseTransportFailure_draws (s : State) : (s.raiseTransportFailure).draws = s.draws := rfl

/-! ### `State.raiseCancel` -/

@[simp] theorem State.raiseCancel_crc (s : State) : (s.raiseCancel).crc = s.crc := rfl
@[simp] theorem State.raiseCancel_xstate (s : State) : (s.raiseCancel).xstate = s.xstate := rfl
@[simp] theorem State.raiseCancel_xframe (s : State) : (s.raiseCancel).xframe = s.xframe := rfl
@[simp] theorem State.raiseCancel_xhdr (s : State) : (s.raiseCancel).xhdr = s.xhdr := rfl
@[simp] theorem State.raiseCancel_xcnt (s : State) : (s.raiseCancel).xcnt = s.xcnt := rfl
@[simp] theorem State.raiseCancel_xwords (s : State) : (s.raiseCancel).xwords = s.xwords := rfl
@[simp] theorem State.raiseCancel_pend (s : State) : (s.raiseCancel).pend = s.pend := rfl
@[simp] theorem State.raiseCancel_pcmd (s : State) : (s.raiseCancel).pcmd = s.pcmd := rfl
@[simp] theorem State.raiseCancel_sstate (s : State) : (s.raiseCancel).sstate = s.sstate := rfl
@[simp] theorem State.raiseCancel_rr (s : State) : (s.raiseCancel).rr = s.rr := rfl
@[simp] theorem State.raiseCancel_svc (s : State) : (s.raiseCancel).svc = s.svc := rfl
@[simp] theorem State.raiseCancel_cancel (s : State) : (s.raiseCancel).cancel = true := rfl
@[simp] theorem State.raiseCancel_fault (s : State) : (s.raiseCancel).fault = s.fault := rfl
@[simp] theorem State.raiseCancel_out (s : State) : (s.raiseCancel).out = s.out := rfl
@[simp] theorem State.raiseCancel_cfg (s : State) : (s.raiseCancel).cfg = s.cfg := rfl
@[simp] theorem State.raiseCancel_result (s : State) : (s.raiseCancel).result = s.result := rfl
@[simp] theorem State.raiseCancel_waiting (s : State) : (s.raiseCancel).waiting = s.waiting := rfl
@[simp] theorem State.raiseCancel_wire (s : State) : (s.raiseCancel).wire = s.wire := rfl
@[simp] theorem State.raiseCancel_turns (s : State) : (s.raiseCancel).turns = s.turns := rfl
@[simp] theorem State.raiseCancel_draws (s : State) : (s.raiseCancel).draws = s.draws := rfl

/-! ### `State.consumeFact` -/

@[simp] theorem State.consumeFact_crc (s : State) : (s.consumeFact).crc = s.crc := rfl
@[simp] theorem State.consumeFact_xstate (s : State) : (s.consumeFact).xstate = s.xstate := rfl
@[simp] theorem State.consumeFact_xframe (s : State) : (s.consumeFact).xframe = s.xframe := rfl
@[simp] theorem State.consumeFact_xhdr (s : State) : (s.consumeFact).xhdr = s.xhdr := rfl
@[simp] theorem State.consumeFact_xcnt (s : State) : (s.consumeFact).xcnt = s.xcnt := rfl
@[simp] theorem State.consumeFact_xwords (s : State) : (s.consumeFact).xwords = s.xwords := rfl
@[simp] theorem State.consumeFact_pend (s : State) : (s.consumeFact).pend = s.pend := rfl
@[simp] theorem State.consumeFact_pcmd (s : State) : (s.consumeFact).pcmd = s.pcmd := rfl
@[simp] theorem State.consumeFact_sstate (s : State) : (s.consumeFact).sstate = s.sstate := rfl
@[simp] theorem State.consumeFact_rr (s : State) : (s.consumeFact).rr = s.rr := rfl
@[simp] theorem State.consumeFact_svc (s : State) : (s.consumeFact).svc = s.svc := rfl
@[simp] theorem State.consumeFact_cancel (s : State) : (s.consumeFact).cancel = s.cancel := rfl
@[simp] theorem State.consumeFact_fault (s : State) : (s.consumeFact).fault = s.fault := rfl
@[simp] theorem State.consumeFact_out (s : State) : (s.consumeFact).out = s.out.drop 1 := rfl
@[simp] theorem State.consumeFact_cfg (s : State) : (s.consumeFact).cfg = s.cfg := rfl
@[simp] theorem State.consumeFact_result (s : State) : (s.consumeFact).result = s.result := rfl
@[simp] theorem State.consumeFact_waiting (s : State) : (s.consumeFact).waiting = s.waiting := rfl
@[simp] theorem State.consumeFact_wire (s : State) : (s.consumeFact).wire = s.wire := rfl
@[simp] theorem State.consumeFact_turns (s : State) : (s.consumeFact).turns = s.turns := rfl
@[simp] theorem State.consumeFact_draws (s : State) : (s.consumeFact).draws = s.draws := rfl

/-! ### `State.consumeOutcome` -/

@[simp] theorem State.consumeOutcome_crc (s : State) : (s.consumeOutcome).crc = s.crc := rfl
@[simp] theorem State.consumeOutcome_xstate (s : State) : (s.consumeOutcome).xstate = .idle := rfl
@[simp] theorem State.consumeOutcome_xframe (s : State) : (s.consumeOutcome).xframe = s.xframe := rfl
@[simp] theorem State.consumeOutcome_xhdr (s : State) : (s.consumeOutcome).xhdr = s.xhdr := rfl
@[simp] theorem State.consumeOutcome_xcnt (s : State) : (s.consumeOutcome).xcnt = s.xcnt := rfl
@[simp] theorem State.consumeOutcome_xwords (s : State) : (s.consumeOutcome).xwords = s.xwords := rfl
@[simp] theorem State.consumeOutcome_pend (s : State) : (s.consumeOutcome).pend = s.pend := rfl
@[simp] theorem State.consumeOutcome_pcmd (s : State) : (s.consumeOutcome).pcmd = s.pcmd := rfl
@[simp] theorem State.consumeOutcome_sstate (s : State) : (s.consumeOutcome).sstate = s.sstate := rfl
@[simp] theorem State.consumeOutcome_rr (s : State) : (s.consumeOutcome).rr = s.rr := rfl
@[simp] theorem State.consumeOutcome_svc (s : State) : (s.consumeOutcome).svc = s.svc := rfl
@[simp] theorem State.consumeOutcome_cancel (s : State) : (s.consumeOutcome).cancel = s.cancel := rfl
@[simp] theorem State.consumeOutcome_fault (s : State) : (s.consumeOutcome).fault = s.fault := rfl
@[simp] theorem State.consumeOutcome_out (s : State) : (s.consumeOutcome).out = s.out := rfl
@[simp] theorem State.consumeOutcome_cfg (s : State) : (s.consumeOutcome).cfg = s.cfg := rfl
@[simp] theorem State.consumeOutcome_result (s : State) : (s.consumeOutcome).result = s.result := rfl
@[simp] theorem State.consumeOutcome_waiting (s : State) : (s.consumeOutcome).waiting = s.waiting := rfl
@[simp] theorem State.consumeOutcome_wire (s : State) : (s.consumeOutcome).wire = s.wire := rfl
@[simp] theorem State.consumeOutcome_turns (s : State) : (s.consumeOutcome).turns = s.turns := rfl
@[simp] theorem State.consumeOutcome_draws (s : State) : (s.consumeOutcome).draws = s.draws := rfl

/-! ### `State.postCommand` -/

@[simp] theorem State.postCommand_crc (s : State) (k : CmdKind) (v : Word) : (s.postCommand k v).crc = s.crc := rfl
@[simp] theorem State.postCommand_xstate (s : State) (k : CmdKind) (v : Word) : (s.postCommand k v).xstate = s.xstate := rfl
@[simp] theorem State.postCommand_xframe (s : State) (k : CmdKind) (v : Word) : (s.postCommand k v).xframe = s.xframe := rfl
@[simp] theorem State.postCommand_xhdr (s : State) (k : CmdKind) (v : Word) : (s.postCommand k v).xhdr = s.xhdr := rfl
@[simp] theorem State.postCommand_xcnt (s : State) (k : CmdKind) (v : Word) : (s.postCommand k v).xcnt = s.xcnt := rfl
@[simp] theorem State.postCommand_xwords (s : State) (k : CmdKind) (v : Word) : (s.postCommand k v).xwords = s.xwords := rfl
@[simp] theorem State.postCommand_pend (s : State) (k : CmdKind) (v : Word) : (s.postCommand k v).pend = s.pend := rfl
@[simp] theorem State.postCommand_pcmd (s : State) (k : CmdKind) (v : Word) : (s.postCommand k v).pcmd = s.pcmd.set k ((s.pcmd.get k).posted v) := rfl
@[simp] theorem State.postCommand_sstate (s : State) (k : CmdKind) (v : Word) : (s.postCommand k v).sstate = s.sstate := rfl
@[simp] theorem State.postCommand_rr (s : State) (k : CmdKind) (v : Word) : (s.postCommand k v).rr = s.rr := rfl
@[simp] theorem State.postCommand_svc (s : State) (k : CmdKind) (v : Word) : (s.postCommand k v).svc = s.svc := rfl
@[simp] theorem State.postCommand_cancel (s : State) (k : CmdKind) (v : Word) : (s.postCommand k v).cancel = s.cancel := rfl
@[simp] theorem State.postCommand_fault (s : State) (k : CmdKind) (v : Word) : (s.postCommand k v).fault = s.fault := rfl
@[simp] theorem State.postCommand_out (s : State) (k : CmdKind) (v : Word) : (s.postCommand k v).out = s.out := rfl
@[simp] theorem State.postCommand_cfg (s : State) (k : CmdKind) (v : Word) : (s.postCommand k v).cfg = s.cfg := rfl
@[simp] theorem State.postCommand_result (s : State) (k : CmdKind) (v : Word) : (s.postCommand k v).result = s.result := rfl
@[simp] theorem State.postCommand_waiting (s : State) (k : CmdKind) (v : Word) : (s.postCommand k v).waiting = s.waiting := rfl
@[simp] theorem State.postCommand_wire (s : State) (k : CmdKind) (v : Word) : (s.postCommand k v).wire = s.wire := rfl
@[simp] theorem State.postCommand_turns (s : State) (k : CmdKind) (v : Word) : (s.postCommand k v).turns = s.turns := rfl
@[simp] theorem State.postCommand_draws (s : State) (k : CmdKind) (v : Word) : (s.postCommand k v).draws = s.draws := rfl

/-! ### `State.retireCommand` -/

@[simp] theorem State.retireCommand_crc (s : State) (k : CmdKind) (g : Nat) : (s.retireCommand k g).crc = s.crc := rfl
@[simp] theorem State.retireCommand_xstate (s : State) (k : CmdKind) (g : Nat) : (s.retireCommand k g).xstate = s.xstate := rfl
@[simp] theorem State.retireCommand_xframe (s : State) (k : CmdKind) (g : Nat) : (s.retireCommand k g).xframe = s.xframe := rfl
@[simp] theorem State.retireCommand_xhdr (s : State) (k : CmdKind) (g : Nat) : (s.retireCommand k g).xhdr = s.xhdr := rfl
@[simp] theorem State.retireCommand_xcnt (s : State) (k : CmdKind) (g : Nat) : (s.retireCommand k g).xcnt = s.xcnt := rfl
@[simp] theorem State.retireCommand_xwords (s : State) (k : CmdKind) (g : Nat) : (s.retireCommand k g).xwords = s.xwords := rfl
@[simp] theorem State.retireCommand_pend (s : State) (k : CmdKind) (g : Nat) : (s.retireCommand k g).pend = s.pend := rfl
@[simp] theorem State.retireCommand_pcmd (s : State) (k : CmdKind) (g : Nat) : (s.retireCommand k g).pcmd = s.pcmd.set k ((s.pcmd.get k).retired g) := rfl
@[simp] theorem State.retireCommand_sstate (s : State) (k : CmdKind) (g : Nat) : (s.retireCommand k g).sstate = s.sstate := rfl
@[simp] theorem State.retireCommand_rr (s : State) (k : CmdKind) (g : Nat) : (s.retireCommand k g).rr = s.rr := rfl
@[simp] theorem State.retireCommand_svc (s : State) (k : CmdKind) (g : Nat) : (s.retireCommand k g).svc = s.svc := rfl
@[simp] theorem State.retireCommand_cancel (s : State) (k : CmdKind) (g : Nat) : (s.retireCommand k g).cancel = s.cancel := rfl
@[simp] theorem State.retireCommand_fault (s : State) (k : CmdKind) (g : Nat) : (s.retireCommand k g).fault = s.fault := rfl
@[simp] theorem State.retireCommand_out (s : State) (k : CmdKind) (g : Nat) : (s.retireCommand k g).out = s.out := rfl
@[simp] theorem State.retireCommand_cfg (s : State) (k : CmdKind) (g : Nat) : (s.retireCommand k g).cfg = s.cfg := rfl
@[simp] theorem State.retireCommand_result (s : State) (k : CmdKind) (g : Nat) : (s.retireCommand k g).result = s.result := rfl
@[simp] theorem State.retireCommand_waiting (s : State) (k : CmdKind) (g : Nat) : (s.retireCommand k g).waiting = s.waiting := rfl
@[simp] theorem State.retireCommand_wire (s : State) (k : CmdKind) (g : Nat) : (s.retireCommand k g).wire = s.wire := rfl
@[simp] theorem State.retireCommand_turns (s : State) (k : CmdKind) (g : Nat) : (s.retireCommand k g).turns = s.turns := rfl
@[simp] theorem State.retireCommand_draws (s : State) (k : CmdKind) (g : Nat) : (s.retireCommand k g).draws = s.draws := rfl

/-! ### `State.processResp` -/

@[simp] theorem State.processResp_crc (s : State) (reg : Word) (ws : List Word) : (s.processResp reg ws).crc = s.crc := rfl
@[simp] theorem State.processResp_xstate (s : State) (reg : Word) (ws : List Word) : (s.processResp reg ws).xstate = s.xstate := rfl
@[simp] theorem State.processResp_xframe (s : State) (reg : Word) (ws : List Word) : (s.processResp reg ws).xframe = s.xframe := rfl
@[simp] theorem State.processResp_xhdr (s : State) (reg : Word) (ws : List Word) : (s.processResp reg ws).xhdr = s.xhdr := rfl
@[simp] theorem State.processResp_xcnt (s : State) (reg : Word) (ws : List Word) : (s.processResp reg ws).xcnt = s.xcnt := rfl
@[simp] theorem State.processResp_xwords (s : State) (reg : Word) (ws : List Word) : (s.processResp reg ws).xwords = s.xwords := rfl
@[simp] theorem State.processResp_pend (s : State) (reg : Word) (ws : List Word) : (s.processResp reg ws).pend = pendEmpty := rfl
@[simp] theorem State.processResp_pcmd (s : State) (reg : Word) (ws : List Word) : (s.processResp reg ws).pcmd = s.pcmd := rfl
@[simp] theorem State.processResp_sstate (s : State) (reg : Word) (ws : List Word) : (s.processResp reg ws).sstate = s.sstate := rfl
@[simp] theorem State.processResp_rr (s : State) (reg : Word) (ws : List Word) : (s.processResp reg ws).rr = s.rr := rfl
@[simp] theorem State.processResp_svc (s : State) (reg : Word) (ws : List Word) : (s.processResp reg ws).svc = s.svc := rfl
@[simp] theorem State.processResp_cancel (s : State) (reg : Word) (ws : List Word) : (s.processResp reg ws).cancel = s.cancel := rfl
@[simp] theorem State.processResp_fault (s : State) (reg : Word) (ws : List Word) : (s.processResp reg ws).fault = s.fault := rfl
@[simp] theorem State.processResp_out (s : State) (reg : Word) (ws : List Word) : (s.processResp reg ws).out = s.out ++ responseFacts s.cfg reg ws := rfl
@[simp] theorem State.processResp_cfg (s : State) (reg : Word) (ws : List Word) : (s.processResp reg ws).cfg = s.cfg := rfl
@[simp] theorem State.processResp_result (s : State) (reg : Word) (ws : List Word) : (s.processResp reg ws).result = s.result := rfl
@[simp] theorem State.processResp_waiting (s : State) (reg : Word) (ws : List Word) : (s.processResp reg ws).waiting = s.waiting := rfl
@[simp] theorem State.processResp_wire (s : State) (reg : Word) (ws : List Word) : (s.processResp reg ws).wire = s.wire := rfl
@[simp] theorem State.processResp_turns (s : State) (reg : Word) (ws : List Word) : (s.processResp reg ws).turns = s.turns := rfl
@[simp] theorem State.processResp_draws (s : State) (reg : Word) (ws : List Word) : (s.processResp reg ws).draws = s.draws := rfl

/-! ### `State.pullReset` -/

@[simp] theorem State.pullReset_crc (s : State) : (s.pullReset).crc = 0xFFFF := rfl
@[simp] theorem State.pullReset_xstate (s : State) : (s.pullReset).xstate = .idle := rfl
@[simp] theorem State.pullReset_xframe (s : State) : (s.pullReset).xframe = [] := rfl
@[simp] theorem State.pullReset_xhdr (s : State) : (s.pullReset).xhdr = [0, 0, 0, 0, 0, 0, 0, 0] := rfl
@[simp] theorem State.pullReset_xcnt (s : State) : (s.pullReset).xcnt = 0 := rfl
@[simp] theorem State.pullReset_xwords (s : State) : (s.pullReset).xwords = [] := rfl
@[simp] theorem State.pullReset_pend (s : State) : (s.pullReset).pend = pendEmpty := rfl
@[simp] theorem State.pullReset_pcmd (s : State) : (s.pullReset).pcmd = ⟨⟨false, 0, 0⟩, ⟨false, 0, 0⟩, ⟨false, 0, 0⟩⟩ := rfl
@[simp] theorem State.pullReset_sstate (s : State) : (s.pullReset).sstate = .telem := rfl
@[simp] theorem State.pullReset_rr (s : State) : (s.pullReset).rr = 0 := rfl
@[simp] theorem State.pullReset_svc (s : State) : (s.pullReset).svc = none := rfl
@[simp] theorem State.pullReset_cancel (s : State) : (s.pullReset).cancel = false := rfl
@[simp] theorem State.pullReset_fault (s : State) : (s.pullReset).fault = false := rfl
@[simp] theorem State.pullReset_out (s : State) : (s.pullReset).out = [] := rfl
@[simp] theorem State.pullReset_cfg (s : State) : (s.pullReset).cfg = s.cfg := rfl
@[simp] theorem State.pullReset_result (s : State) : (s.pullReset).result = .none := rfl
@[simp] theorem State.pullReset_waiting (s : State) : (s.pullReset).waiting = [] := rfl
@[simp] theorem State.pullReset_wire (s : State) : (s.pullReset).wire = s.wire := rfl
@[simp] theorem State.pullReset_turns (s : State) : (s.pullReset).turns = s.turns := rfl
@[simp] theorem State.pullReset_draws (s : State) : (s.pullReset).draws = s.draws := rfl

end Sys2Proof.Machine
end

