-- ==== Sys2Proof/Laws/Codec.lean ====
section
/-! SUPPORT. What the frame codec's functions answer. -/

namespace Sys2Proof.Machine

@[simp] theorem frameHeader_length (c : Config) (fc : Byte) (reg count : Word) : (frameHeader c fc reg count).length = 8 := rfl

@[simp] theorem withTrailer_length (b : List Byte) : (withTrailer b).length = b.length + 2 := by simp [withTrailer]

theorem countOk_iff (c : Config) (n : Word) : countOk c n = true ↔ n ≤ c.maxCount := by simp [countOk]

theorem respOperandsOk_iff (c : Config) (h : List Byte) (n : Word) :
    respOperandsOk c h n = true ↔ n ≤ c.maxCount ∧ h.length = 8 := by simp [respOperandsOk, countOk]

/-- ENC_READ's function answers a frame exactly when the count is in its type (R111). -/
theorem readFrame_ok_iff {c : Config} {reg count : Word} {f : List Byte} :
    readFrame c reg count = .ok f ↔ count ≤ c.maxCount ∧ f = withTrailer (frameHeader c Config.fcRead reg count) := by
  by_cases h : count ≤ c.maxCount
  · have := (countOk_iff c count).mpr h
    simp only [readFrame, this, if_true, Except.ok.injEq, h, true_and]
    exact eq_comm
  · have := mt (countOk_iff c count).mp h
    simp [readFrame, this, h]

/-- ENC_WRITE's function answers a frame exactly when count and data are in their types (R112). -/
theorem writeFrame_ok_iff {c : Config} {reg count : Word} {data : List Word} {f : List Byte} :
    writeFrame c reg count data = .ok f ↔ count ≤ c.maxCount ∧ data.length = count.toNat ∧
      f = withTrailer (frameHeader c Config.fcWrite reg count ++ bytesOfWords data) := by
  by_cases h : count ≤ c.maxCount
  · have := (countOk_iff c count).mpr h
    by_cases hl : data.length = count.toNat
    · simp only [writeFrame, this, hl, if_true, Except.ok.injEq, h, true_and]
      exact eq_comm
    · simp [writeFrame, this, h, hl]
  · have := mt (countOk_iff c count).mp h
    simp [writeFrame, this, h]

/-- The first eight bytes of a frame are its header (R115). -/
theorem take_header_withTrailer (c : Config) (fc : Byte) (reg count : Word) (rest : List Byte) :
    (withTrailer (frameHeader c fc reg count ++ rest)).take 8 = frameHeader c fc reg count := rfl

/-- The length of a frame with `n` data words (R70). -/
@[simp] theorem frameBytes_length (dev fc : Byte) (reg count : Word) (data : List Word) (crc : Word) :
    (frameBytes dev fc reg count data crc).length = 10 + 2 * data.length := by
  simp [frameBytes, frameBody, be16, le16]
  omega

/-- A frame within the bound is latched as it is (R173). -/
theorem latchFrame_of_length {c : Config} {f : List Byte} (h : f.length ≤ frameBound c) : latchFrame c f = f := if_pos h

/-- Whatever is latched is within the bound (R20). -/
theorem latchFrame_length_le (c : Config) (f : List Byte) : (latchFrame c f).length ≤ frameBound c := by
  unfold latchFrame
  split
  · assumption
  · exact List.length_take_le _ _

/-- A frame with at most `MAX_COUNT` data words is within the bound. -/
theorem frameBytes_length_le {c : Config} {dev fc : Byte} {reg count : Word} {data : List Word} {crc : Word}
    (h : data.length ≤ c.maxCount.toNat) : (frameBytes dev fc reg count data crc).length ≤ frameBound c := by
  rw [frameBytes_length, frameBound]
  omega

theorem decodeResp_ok_iff {c : Config} {raw hdr : List Byte} {count : Word} {r : DecResult} :
    decodeResp c raw hdr count = .ok r ↔ count ≤ c.maxCount ∧ hdr.length = 8 ∧ parseResponse raw hdr count = r := by
  by_cases h : count ≤ c.maxCount ∧ hdr.length = 8
  · simp [decodeResp, (respOperandsOk_iff c hdr count).mpr h, h]
  · have := mt (respOperandsOk_iff c hdr count).mp h
    simp only [decodeResp, this]
    constructor
    · intro e; cases e
    · rintro ⟨h1, h2, _⟩; exact absurd ⟨h1, h2⟩ h

theorem decodeResp_of_operands {c : Config} {raw hdr : List Byte} {count : Word} (hc : count ≤ c.maxCount)
    (hh : hdr.length = 8) : decodeResp c raw hdr count = .ok (parseResponse raw hdr count) :=
  decodeResp_ok_iff.mpr ⟨hc, hh, rfl⟩

/-- When DEC_RESP accepts (R113). -/
theorem parseResponse_ok_iff {raw hdr : List Byte} {count : Word} {ws : List Word} :
    parseResponse raw hdr count = .ok ws ↔
      frameLength count ≤ raw.length ∧ (raw.take (frameLength count)).take 8 = hdr ∧
      trailerOk (raw.take (frameLength count)) = true ∧
      wordsOfBytes (((raw.take (frameLength count)).drop 8).take (2 * count.toNat)) = ws := by
  unfold parseResponse
  simp only
  split
  · next h => constructor
              · intro e; cases e
              · rintro ⟨h', _⟩; omega
  · next h =>
    split
    · next h2 => simp [h2]
    · next h2 =>
      split
      · next h3 => simp_all
      · next h3 => simp [h3]

/-- Too few bytes (R113, first check). -/
theorem parseResponse_of_short {raw hdr : List Byte} {count : Word} (h : raw.length < frameLength count) :
    parseResponse raw hdr count = .lengthError := by
  unfold parseResponse; rw [if_pos h]

/-- Enough bytes, another header (R113, second check). -/
theorem parseResponse_of_header {raw hdr : List Byte} {count : Word} (hl : frameLength count ≤ raw.length)
    (h : (raw.take (frameLength count)).take 8 ≠ hdr) : parseResponse raw hdr count = .headerMismatch := by
  unfold parseResponse; rw [if_neg (by omega)]; simp only [if_pos h]

/-- The header right, the trailer wrong (R113, third check). -/
theorem parseResponse_of_trailer {raw hdr : List Byte} {count : Word} (hl : frameLength count ≤ raw.length)
    (h : (raw.take (frameLength count)).take 8 = hdr) (ht : trailerOk (raw.take (frameLength count)) = false) :
    parseResponse raw hdr count = .checksumError := by
  unfold parseResponse; rw [if_neg (by omega)]; simp [h, ht]

/-- The trailer test on a body and two trailer bytes (R103). -/
theorem trailerOk_append (b : List Byte) (l h : Byte) : trailerOk (b ++ [l, h]) = decide (joinBytes h l = crc16 b) := by
  have h1 : (b ++ [l, h]).length - 1 = b.length + 1 := by simp
  have h2 : (b ++ [l, h]).length - 2 = b.length := by simp
  simp only [trailerOk, h1, h2]
  simp [List.getD]

/-- A frame the codec builds passes the trailer test (R104). -/
@[simp] theorem trailerOk_withTrailer (b : List Byte) : trailerOk (withTrailer b) = true := by
  simp [withTrailer, le16, trailerOk_append]

/-- The words of a frame by index (R113). -/
theorem wordsOfBytes_slice (r : List Byte) (n : Nat) (h : 8 + 2 * n ≤ r.length) :
    wordsOfBytes ((r.drop 8).take (2 * n)) =
      (List.range n).map fun i => joinBytes (r.getD (8 + 2 * i) 0) (r.getD (9 + 2 * i) 0) := by
  have slice : ∀ k, k < 2 * n → ((r.drop 8).take (2 * n)).getD k 0 = r.getD (8 + k) 0 := by
    intro k hk; simp [List.getD, hk, List.getElem?_drop]
  apply List.ext_getElem?
  intro i
  by_cases hi : i < n
  · rw [wordsOfBytes_getElem? _ _ (by simp; omega), slice _ (by omega), slice _ (by omega)]
    simp [hi, show 8 + (2 * i + 1) = 9 + 2 * i by omega]
  · rw [List.getElem?_eq_none, List.getElem?_eq_none]
    · simp; omega
    · rw [wordsOfBytes_length]; simp; omega

/-- An accepted response has as many words as were asked for. -/
theorem parseResponse_length {raw hdr : List Byte} {count : Word} {ws : List Word}
    (h : parseResponse raw hdr count = .ok ws) : ws.length = count.toNat := by
  obtain ⟨hl, _, _, rfl⟩ := parseResponse_ok_iff.mp h
  rw [wordsOfBytes_length]
  simp only [List.length_take, List.length_drop, frameLength] at *
  omega

end Sys2Proof.Machine
end

