-- ==== Sys2Proof/Laws/Exchange.lean ====
section
/-! SUPPORT. Everything the exchange FSM's steps can do. -/

namespace Sys2Proof.Machine

/-- The state after an accepted exchange (R173). -/
def State.accepted (s : State) (frame hdr : List Byte) (count : Word) : State :=
  { s with xframe := frame, xhdr := hdr, xcnt := count, xwords := [], xstate := if s.cancel then .cancelled else .tx }

/-- Acceptance answers a next state exactly when the operands are in their types (R173). -/
theorem acceptExchange_next_iff {f h : List Byte} {n : Word} {s t : State} :
    acceptExchange f h n s = .next t ↔
      (n ≤ s.cfg.maxCount ∧ h.length = 8) ∧ t = s.accepted (latchFrame s.cfg f) h n := by
  by_cases hk : n ≤ s.cfg.maxCount ∧ h.length = 8
  · simp only [acceptExchange, (respOperandsOk_iff s.cfg h n).mpr hk, if_true, hk, and_self, true_and, State.accepted,
      Host.Outcome.next.injEq]
    exact eq_comm
  · simp [acceptExchange, mt (respOperandsOk_iff s.cfg h n).mp hk, hk]

/-- Acceptance of a frame within the bound. -/
theorem acceptExchange_of_operands {f h : List Byte} {n : Word} {s : State} (hn : n ≤ s.cfg.maxCount) (hh : h.length = 8)
    (hf : f.length ≤ frameBound s.cfg) : acceptExchange f h n s = .next (s.accepted f h n) :=
  acceptExchange_next_iff.mpr ⟨⟨hn, hh⟩, by rw [latchFrame_of_length hf]⟩

/-- What an X_TX turn can do (R174): nothing outside X_TX, cancel, write, or fail. -/
theorem sendStep_cases (ok : Bool) (s : State) :
    (s.xstate ≠ .tx ∧ sendStep ok s = s) ∨
    (s.xstate = .tx ∧ s.cancel = true ∧ sendStep ok s = { s with xstate := .cancelled }) ∨
    (s.xstate = .tx ∧ s.cancel = false ∧ ok = true ∧
      sendStep ok s = { s with wire := s.wire ++ [s.xframe], xstate := .rx }) ∨
    (s.xstate = .tx ∧ s.cancel = false ∧ ok = false ∧ sendStep ok s = s.raiseTransportFailure) := by
  unfold sendStep
  by_cases hx : s.xstate = .tx
  · cases hc : s.cancel <;> cases ok <;> simp [hx]
  · simp [hx]

/-- What a failed read can do (R174). -/
theorem readFailStep_cases (s : State) :
    (s.xstate ≠ .rx ∧ readFailStep s = s) ∨ (s.xstate = .rx ∧ readFailStep s = s.raiseTransportFailure) := by
  unfold readFailStep
  by_cases hx : s.xstate = .rx <;> simp [hx]

/-- What a read can do (R174): nothing outside X_RX, end the exchange with its words, or retry. -/
theorem receiveStep_cases {raw : List Byte} {s t : State} (h : receiveStep raw s = .next t) :
    (s.xstate ≠ .rx ∧ t = s) ∨
    (s.xstate = .rx ∧ ∃ ws, parseResponse raw s.xhdr s.xcnt = .ok ws ∧ t = { s with xwords := ws, xstate := .ok }) ∨
    (s.xstate = .rx ∧ t = { s with xstate := .tx }) := by
  unfold receiveStep at h
  split at h
  · next hx =>
    split at h
    · next ws hd => cases h; exact .inr (.inl ⟨hx, ws, (decodeResp_ok_iff.mp hd).2.2, rfl⟩)
    · cases h; exact .inr (.inr ⟨hx, rfl⟩)
    · cases h
  · next hx => cases h; exact .inl ⟨hx, rfl⟩

/-- A read of an accepted response (R174). -/
theorem receiveStep_ok {raw : List Byte} {s : State} {ws : List Word} (hx : s.xstate = .rx)
    (hd : decodeResp s.cfg raw s.xhdr s.xcnt = .ok (.ok ws)) :
    receiveStep raw s = .next { s with xwords := ws, xstate := .ok } := by
  simp [receiveStep, hx, hd]

/-- A read of anything else retries (R174). -/
theorem receiveStep_retry {raw : List Byte} {s : State} {e : DecResult} (hx : s.xstate = .rx)
    (hd : decodeResp s.cfg raw s.xhdr s.xcnt = .ok e) (he : ∀ ws, e ≠ .ok ws) :
    receiveStep raw s = .next { s with xstate := .tx } := by
  cases e with
  | ok ws => exact absurd rfl (he ws)
  | lengthError => simp [receiveStep, hx, hd]
  | headerMismatch => simp [receiveStep, hx, hd]
  | checksumError => simp [receiveStep, hx, hd]

end Sys2Proof.Machine
end

