-- ==== Sys2Proof/Laws/Registers.lean ====
section
/-! SUPPORT. Reading after writing the keyed registers, and what a take and a retire see. -/

namespace Sys2Proof

@[simp] theorem Five.get_set_self {α : Type} (f : Five α) (i : Fin 5) (v : α) : (f.set i v).get i = v := by
  fin_cases i <;> rfl

theorem Five.get_set_ne {α : Type} (f : Five α) (i j : Fin 5) (v : α) (h : j ≠ i) : (f.set i v).get j = f.get j := by
  fin_cases i <;> fin_cases j <;> first | rfl | exact absurd rfl h

theorem Five.ext_get {α : Type} {f g : Five α} (h : ∀ i, f.get i = g.get i) : f = g := by
  cases f; cases g
  have := h 0; have := h 1; have := h 2; have := h 3; have := h 4
  simp_all [Five.get]

namespace Machine

@[simp] theorem pendEmpty_get (i : Fin 5) : pendEmpty.get i = none := by
  fin_cases i <;> rfl

@[simp] theorem CmdRegs.get_set_self (r : CmdRegs) (k : CmdKind) (p : PendingCmd) : (r.set k p).get k = p := by
  cases k <;> rfl

theorem CmdRegs.get_set_ne (r : CmdRegs) (k j : CmdKind) (p : PendingCmd) (h : j ≠ k) : (r.set k p).get j = r.get j := by
  cases k <;> cases j <;> first | rfl | exact absurd rfl h

@[simp] theorem PendingCmd.posted_dirty (p : PendingCmd) (v : Word) : (p.posted v).dirty = true := rfl
@[simp] theorem PendingCmd.posted_value (p : PendingCmd) (v : Word) : (p.posted v).value = v := rfl
@[simp] theorem PendingCmd.posted_gen (p : PendingCmd) (v : Word) : (p.posted v).gen = p.gen + 1 := rfl

@[simp] theorem PendingCmd.retired_value (p : PendingCmd) (g : Nat) : (p.retired g).value = p.value := by
  unfold PendingCmd.retired; split <;> rfl

@[simp] theorem PendingCmd.retired_gen (p : PendingCmd) (g : Nat) : (p.retired g).gen = p.gen := by
  unfold PendingCmd.retired; split <;> rfl

theorem PendingCmd.retired_dirty (p : PendingCmd) (g : Nat) : (p.retired g).dirty = (p.dirty && decide (p.gen ≠ g)) := by
  unfold PendingCmd.retired; split <;> simp_all

/-- What CMD_TAKE returns is the value and generation of a dirty register. -/
theorem firstDirty_some {r : CmdRegs} {v : Service} (h : firstDirty r = some v) :
    (r.get v.kind).dirty = true ∧ v.value = (r.get v.kind).value ∧ v.gen = (r.get v.kind).gen := by
  unfold firstDirty at h
  split at h
  · cases h; exact ⟨‹_›, rfl, rfl⟩
  · split at h
    · cases h; exact ⟨‹_›, rfl, rfl⟩
    · split at h
      · cases h; exact ⟨‹_›, rfl, rfl⟩
      · cases h

/-- CMD_TAKE returns nothing exactly when nothing is dirty. -/
theorem firstDirty_none {r : CmdRegs} (h : firstDirty r = none) (k : CmdKind) : (r.get k).dirty = false := by
  unfold firstDirty at h
  split at h
  · cases h
  · split at h
    · cases h
    · split at h
      · cases h
      · cases k <;> simp_all [CmdRegs.get]

end Machine
end Sys2Proof
end

