-- ==== Sys2Proof/Laws/Exec.lean ====
section
/-! SUPPORT. Everything an instruction can do when `exec` answers a next state. -/

namespace Sys2Proof.Machine

/-- The ways an instruction changes the state; each constructor says all of it. -/
inductive ExecEffect (i : Instr) (s : State) : State → Prop
  /-- Only the port's result lines and the CRC register. -/
  | port (c : Word) (r : Result) : ExecEffect i s { s with crc := c, result := r }
  /-- The reassembler: its accumulator, and facts for which there is room. -/
  | reassembler (p : Five (Option Word)) (fs : List Fact) (r : Result) (room : s.hasRoom fs.length = true) :
      ExecEffect i s { s with pend := p, out := s.out ++ fs, result := r }
  /-- The operation holds. -/
  | hold (wait : canWait i = true) : ExecEffect i s (s.holdOp i)
  /-- An exchange is accepted. -/
  | accept (f h : List Byte) (n : Word) (wait : canWait i = true) (idle : s.xstate = .idle) (count : n ≤ s.cfg.maxCount)
      (header : h.length = 8) (frame : f.length ≤ frameBound s.cfg) : ExecEffect i s ((s.withResult .started).accepted f h n)
  /-- CMD_POST accepts. -/
  | post (topic : String) (payload : List Byte) (k : CmdKind) (v : Word) (is : i = .cmdPost topic payload)
      (valid : validate s.cfg k payload = some v) :
      ExecEffect i s ((s.postCommand k v).withResult (.posted .accepted))
  /-- CMD_RETIRE. -/
  | retire (k : CmdKind) (g : Nat) (is : i = .cmdRetire k g) (r : Result) :
      ExecEffect i s ((s.retireCommand k g).withResult r)
  /-- A response frame that nobody reads. -/
  | unread : ExecEffect i s s
  /-- A response frame that ends the exchange. -/
  | received (raw : List Byte) (ws : List Word) (rx : s.xstate = .rx) (parse : parseResponse raw s.xhdr s.xcnt = .ok ws) :
      ExecEffect i s { s with xwords := ws, xstate := .ok }
  /-- A response frame that makes the exchange retry. -/
  | retry (rx : s.xstate = .rx) : ExecEffect i s { s with xstate := .tx }

theorem answer_next {α : Type} {r : Except Refusal α} {f : α → Result} {s t : State} (h : answer r f s = .next t) :
    ∃ x, t = s.withResult (f x) := by
  unfold answer at h
  split at h
  · cases h; exact ⟨_, rfl⟩
  · cases h

theorem accept_effect {i : Instr} {s t : State} {f h : List Byte} {n : Word} (wait : canWait i = true)
    (idle : s.xstate = .idle) (e : acceptExchange f h n (s.withResult .started) = .next t) : ExecEffect i s t := by
  obtain ⟨⟨hn, hh⟩, rfl⟩ := acceptExchange_next_iff.mp e
  exact .accept _ h n wait idle hn hh (latchFrame_length_le _ f)

theorem receive_effect {i : Instr} {s t : State} {raw : List Byte} (e : receiveStep raw s = .next t) : ExecEffect i s t := by
  obtain ⟨_, rfl⟩ | ⟨hx, ws, hp, rfl⟩ | ⟨hx, rfl⟩ := receiveStep_cases e
  · exact .unread
  · exact .received raw ws hx hp
  · exact .retry hx

/-- Every next state of `exec` is one of the effects. -/
theorem exec_effect {i : Instr} {s t : State} (h : exec i s = .next t) : ExecEffect i s t := by
  cases i with
  | crcInit => cases h; exact .port _ _
  | crcByte b => cases h; exact .port _ _
  | encRead reg count => obtain ⟨x, rfl⟩ := answer_next h; exact .port s.crc _
  | encWrite reg count data => obtain ⟨x, rfl⟩ := answer_next h; exact .port s.crc _
  | decResp raw hdr count => obtain ⟨x, rfl⟩ := answer_next h; exact .port s.crc _
  | interp a w => cases h; exact .port s.crc _
  | topic a => cases h; exact .port s.crc _
  | rsmBegin =>
    cases h
    have : s.hasRoom ([] : List Fact).length = true := by unfold State.hasRoom; split <;> simp
    have := ExecEffect.reassembler (i := .rsmBegin) pendEmpty [] Result.none this
    simpa using this
  | rsmWord a w =>
    simp only [exec, execRsmWord] at h
    split at h
    · next hr => cases h; exact .reassembler _ _ _ hr
    · cases h; exact .hold rfl
  | rsmEnd =>
    cases h
    have : s.hasRoom ([] : List Fact).length = true := by unfold State.hasRoom; split <;> simp
    have := ExecEffect.reassembler (i := .rsmEnd) pendEmpty [] Result.none this
    simpa using this
  | exchange frame hdr count =>
    simp only [exec, execExchange] at h
    split at h
    · next hx => exact accept_effect rfl hx h
    · cases h; exact .hold rfl
  | cmdPost topic payload =>
    simp only [exec, execCmdPost] at h
    split at h
    · cases h; exact .port s.crc _
    · split at h
      · cases h; exact .port s.crc _
      · next k _ _ v hv => cases h; exact .post topic payload k v rfl hv
  | cmdTake => cases h; exact .port s.crc _
  | cmdRetire k g => cases h; exact .retire k g rfl _
  | reqRead dev reg count crc =>
    simp only [exec, execReqRead] at h
    split at h
    · next hx =>
      split at h
      · exact accept_effect rfl hx h
      · cases h
    · cases h; exact .hold rfl
  | reqWrite dev reg count data crc =>
    simp only [exec, execReqWrite] at h
    split at h
    · next hx =>
      split at h
      · split at h
        · exact accept_effect rfl hx h
        · cases h
      · cases h
    · cases h; exact .hold rfl
  | rspRead dev reg count data crc => exact receive_effect h
  | rspWrite dev reg count data crc => exact receive_effect h

end Sys2Proof.Machine
end

