-- ==== Sys2Proof/Laws/PerInstr.lean ====
section
/-! SUPPORT. Per-instruction families: the encoding of each instruction carries the code its row of the opcode table gives. -/

namespace Sys2Proof

/-- The number the opcode table matches (`match` under `mask`): the operation code of a port word, or the first four bytes
of a frame read as a big-endian 32-bit word. -/
def matchWord : Input → Nat
  | .op p => p.op.toNat
  | .request bs => ((bs.take 4).foldl (fun n b => 256 * n + b.toNat) 0) &&& 0xFFFF00FF
  | .response bs => ((bs.take 4).foldl (fun n b => 256 * n + b.toNat) 0) &&& 0xFFFF00FF

/-- The `match` column of spec/opcode_table.json. -/
def tableMatch : Instr → Nat
  | .crcInit => 0x1
  | .crcByte _ => 0x2
  | .encRead _ _ => 0x3
  | .encWrite _ _ _ => 0x4
  | .decResp _ _ _ => 0x5
  | .interp _ _ => 0x6
  | .topic _ => 0x7
  | .rsmBegin => 0x8
  | .rsmWord _ _ => 0x9
  | .rsmEnd => 0xA
  | .exchange _ _ _ => 0xB
  | .cmdPost _ _ => 0xC
  | .cmdTake => 0xD
  | .cmdRetire _ _ => 0xE
  | .reqRead _ _ _ _ => 0xA55A0003
  | .reqWrite _ _ _ _ _ => 0xA55A0010
  | .rspRead _ _ _ _ _ => 0xA55A0003
  | .rspWrite _ _ _ _ _ => 0xA55A0010

namespace Laws.TableMatch

/-- The encoding's match word is the table's. -/
def Statement (i : Instr) : Prop := matchWord (encode i) = tableMatch i

theorem crcInit : Statement .crcInit := rfl
theorem crcByte (b : Byte) : Statement (.crcByte b) := rfl
theorem encRead (reg count : Word) : Statement (.encRead reg count) := rfl
theorem encWrite (reg count : Word) (data : List Word) : Statement (.encWrite reg count data) := rfl
theorem decResp (raw hdr : List Byte) (count : Word) : Statement (.decResp raw hdr count) := rfl
theorem interp (a w : Word) : Statement (.interp a w) := rfl
theorem topic (a : Word) : Statement (.topic a) := rfl
theorem rsmBegin : Statement .rsmBegin := rfl
theorem rsmWord (a w : Word) : Statement (.rsmWord a w) := rfl
theorem rsmEnd : Statement .rsmEnd := rfl
theorem exchange (frame hdr : List Byte) (count : Word) : Statement (.exchange frame hdr count) := rfl
theorem cmdPost (topic : String) (payload : List Byte) : Statement (.cmdPost topic payload) := rfl
theorem cmdTake : Statement .cmdTake := rfl
theorem cmdRetire (kind : CmdKind) (gen : Nat) : Statement (.cmdRetire kind gen) := rfl

/-- The first four bytes of a frame, with the device byte masked out. -/
theorem marker_match (dev fc : Byte) (h : fc = Config.fcRead ∨ fc = Config.fcWrite) :
    (256 * (256 * (256 * (256 * 0 + Config.boot0.toNat) + Config.boot1.toNat) + dev.toNat) + fc.toNat) &&& 0xFFFF00FF =
      0xA55A0000 + fc.toNat := by
  rcases h with rfl | rfl <;> revert dev <;> decide

theorem reqRead (dev : Byte) (reg count crc : Word) : Statement (.reqRead dev reg count crc) :=
  marker_match dev _ (.inl rfl)
theorem reqWrite (dev : Byte) (reg count : Word) (data : List Word) (crc : Word) :
    Statement (.reqWrite dev reg count data crc) := marker_match dev _ (.inr rfl)
theorem rspRead (dev : Byte) (reg count : Word) (data : List Word) (crc : Word) :
    Statement (.rspRead dev reg count data crc) := marker_match dev _ (.inl rfl)
theorem rspWrite (dev : Byte) (reg count : Word) (data : List Word) (crc : Word) :
    Statement (.rspWrite dev reg count data crc) := marker_match dev _ (.inr rfl)

end Laws.TableMatch

end Sys2Proof
end

