-- ==== Sys2Proof/Laws/Scheduler.lean ====
section
/-! SUPPORT. Everything the scheduler's turn can do when it answers a next state. -/

namespace Sys2Proof.Machine

/-- The ways a scheduler turn changes the state; each constructor says all of it. -/
inductive SchedulerEffect (s : State) : State → Prop
  /-- The scheduler has no step, or holds for room. -/
  | none : SchedulerEffect s s
  /-- The issue step sees cancellation (R191). -/
  | halt (cancel : s.cancel = true) (idle : s.xstate = .idle) :
      SchedulerEffect s { s with sstate := .halted, svc := Option.none }
  /-- The issue step starts an exchange (R191). -/
  | issue (f h : List Byte) (n : Word) (live : s.cancel = false) (idle : s.xstate = .idle) (running : s.sstate ≠ .halted)
      (count : n ≤ s.cfg.maxCount) (header : h.length = 8) (frame : f.length ≤ frameBound s.cfg) :
      SchedulerEffect s (s.accepted f h n)
  /-- S_TELEM completes with a command (R192). -/
  | telemTake (fs : List Fact) (v : Service) (room : s.hasRoom fs.length = true) (at_ : s.sstate = .telem)
      (ok : s.xstate = .ok) (take : firstDirty s.pcmd = some v) :
      SchedulerEffect s { s with xstate := .idle, out := s.out ++ fs, pend := pendEmpty, svc := some v, sstate := .svcWrite }
  /-- S_TELEM completes without a command (R192). -/
  | telemNone (fs : List Fact) (room : s.hasRoom fs.length = true) (at_ : s.sstate = .telem) (ok : s.xstate = .ok)
      (take : firstDirty s.pcmd = Option.none) :
      SchedulerEffect s { s with xstate := .idle, out := s.out ++ fs, pend := pendEmpty, sstate := .diag }
  /-- S_SVC_WRITE completes (R193). -/
  | wrote (at_ : s.sstate = .svcWrite) (ok : s.xstate = .ok) :
      SchedulerEffect s { s with xstate := .idle, sstate := .svcConfirm }
  /-- S_SVC_CONFIRM completes (R194). -/
  | confirmed (fs : List Fact) (v : Service) (room : s.hasRoom fs.length = true) (at_ : s.sstate = .svcConfirm)
      (ok : s.xstate = .ok) (service : s.svc = some v) :
      SchedulerEffect s { s with xstate := .idle, out := s.out ++ fs, pend := pendEmpty,
                                 pcmd := s.pcmd.set v.kind ((s.pcmd.get v.kind).retired v.gen),
                                 svc := Option.none, sstate := .diag }
  /-- S_SVC_CONFIRM completes with nothing latched, which the invariant rules out (log 14). -/
  | confirmedNone (fs : List Fact) (room : s.hasRoom fs.length = true) (at_ : s.sstate = .svcConfirm)
      (ok : s.xstate = .ok) (service : s.svc = Option.none) :
      SchedulerEffect s { s with xstate := .idle, out := s.out ++ fs, pend := pendEmpty, sstate := .diag }
  /-- S_DIAG completes (R195). -/
  | diagnosed (fs : List Fact) (room : s.hasRoom fs.length = true) (at_ : s.sstate = .diag) (ok : s.xstate = .ok) :
      SchedulerEffect s { s with xstate := .idle, out := s.out ++ fs, pend := pendEmpty, rr := nextRr s.rr, sstate := .telem }
  /-- A cancelled exchange completes (R196). -/
  | cancelled (running : s.sstate ≠ .halted) (x : s.xstate = .cancelled) :
      SchedulerEffect s { s with xstate := .idle, sstate := .halted, svc := Option.none }

theorem issueRead_next {r : Range} {s t : State} (h : issueRead r s = .next t) :
    ∃ f hd n, (n ≤ s.cfg.maxCount ∧ hd.length = 8 ∧ f.length ≤ frameBound s.cfg) ∧ t = s.accepted f hd n := by
  unfold issueRead at h
  split at h
  · obtain ⟨⟨hn, hh⟩, rfl⟩ := acceptExchange_next_iff.mp h
    exact ⟨_, _, _, ⟨hn, hh, latchFrame_length_le _ _⟩, rfl⟩
  · cases h

theorem issueWrite_next {v : Service} {s t : State} (h : issueWrite v s = .next t) :
    ∃ f hd n, (n ≤ s.cfg.maxCount ∧ hd.length = 8 ∧ f.length ≤ frameBound s.cfg) ∧ t = s.accepted f hd n := by
  unfold issueWrite at h
  split at h
  · obtain ⟨⟨hn, hh⟩, rfl⟩ := acceptExchange_next_iff.mp h
    exact ⟨_, _, _, ⟨hn, hh, latchFrame_length_le _ _⟩, rfl⟩
  · cases h

/-- A read state's issue step, with its frame (R191). -/
theorem issueRead_of_count {r : Range} {s : State} (h : r.count ≤ s.cfg.maxCount) :
    issueRead r s = .next (s.accepted (withTrailer (frameHeader s.cfg Config.fcRead r.start r.count))
      (frameHeader s.cfg Config.fcRead r.start r.count) r.count) := by
  simp only [issueRead, readFrame_ok_iff.mpr ⟨h, rfl⟩]
  exact acceptExchange_of_operands h rfl (by simp [frameBound])

/-- The service write's issue step, with its frame (R191, R203). -/
theorem issueWrite_of_count {v : Service} {s : State} (h : 1 ≤ s.cfg.maxCount) (ha : s.cfg.writeAckCount ≤ s.cfg.maxCount) :
    issueWrite v s = .next (s.accepted
      (withTrailer (frameHeader s.cfg Config.fcWrite (cmdReg s.cfg v.kind) 1 ++ bytesOfWords [v.value]))
      (frameHeader s.cfg Config.fcWrite (cmdReg s.cfg v.kind) 1) s.cfg.writeAckCount) := by
  have hw : writeFrame s.cfg (cmdReg s.cfg v.kind) 1 [v.value] = .ok
      (withTrailer (frameHeader s.cfg Config.fcWrite (cmdReg s.cfg v.kind) 1 ++ bytesOfWords [v.value])) :=
    writeFrame_ok_iff.mpr ⟨h, by simp, rfl⟩
  simp only [issueWrite, hw]
  have h1 : (1 : Word).toNat ≤ s.cfg.maxCount.toNat := h
  exact acceptExchange_of_operands ha rfl (by simp [frameBound] at h1 ⊢; omega)

theorem processStep_cases (reg : Word) (after : State → State) (s : State) :
    (s.hasRoom (responseFacts s.cfg reg s.xwords).length = true ∧
      processStep reg after s = after (s.consumeOutcome.processResp reg s.xwords)) ∨
    (s.hasRoom (responseFacts s.cfg reg s.xwords).length = false ∧ processStep reg after s = s) := by
  unfold processStep
  cases h : s.hasRoom (responseFacts s.cfg reg s.xwords).length <;> simp

theorem issue_effect {s t : State} (idle : s.xstate = .idle) (running : s.sstate ≠ .halted) (h : issueStep s = .next t) :
    SchedulerEffect s t := by
  unfold issueStep at h
  split at h
  · next hc => cases h; exact .halt hc idle
  · next hc =>
    have live : s.cancel = false := by simpa using hc
    split at h
    · obtain ⟨f, hd, n, ⟨hn, hh, hf⟩, rfl⟩ := issueRead_next h; exact .issue f hd n live idle running hn hh hf
    · split at h
      · obtain ⟨f, hd, n, ⟨hn, hh, hf⟩, rfl⟩ := issueWrite_next h; exact .issue f hd n live idle running hn hh hf
      · cases h; exact .none
    · obtain ⟨f, hd, n, ⟨hn, hh, hf⟩, rfl⟩ := issueRead_next h; exact .issue f hd n live idle running hn hh hf
    · obtain ⟨f, hd, n, ⟨hn, hh, hf⟩, rfl⟩ := issueRead_next h; exact .issue f hd n live idle running hn hh hf
    · cases h; exact .none

theorem completeOk_effect {s : State} (ok : s.xstate = .ok) : SchedulerEffect s (completeOk s) := by
  unfold completeOk
  split
  · next hs =>
    obtain ⟨hr, e⟩ | ⟨-, e⟩ := processStep_cases s.cfg.telem.start afterTelem s <;> rw [e]
    · unfold afterTelem
      split
      · next v hv => exact .telemTake _ v hr hs ok hv
      · next hv => exact .telemNone _ hr hs ok hv
    · exact .none
  · next hs => exact .wrote hs ok
  · next hs =>
    obtain ⟨hr, e⟩ | ⟨-, e⟩ := processStep_cases s.cfg.confirm.start afterConfirm s <;> rw [e]
    · unfold afterConfirm
      split
      · next v hv => exact .confirmed _ v hr hs ok hv
      · next hv => exact .confirmedNone _ hr hs ok hv
    · exact .none
  · next hs =>
    obtain ⟨hr, e⟩ | ⟨-, e⟩ := processStep_cases (s.cfg.diag.get s.rr).start afterDiag s <;> rw [e]
    · exact .diagnosed _ hr hs ok
    · exact .none
  · exact .none

/-- Every next state of the scheduler's turn is one of the effects. -/
theorem scheduler_effect {s t : State} (h : schedulerStep s = .next t) : SchedulerEffect s t := by
  unfold schedulerStep at h
  split at h
  · cases h; exact .none
  · next running =>
    split at h
    · next hx => exact issue_effect hx running h
    · cases h; exact .none
    · cases h; exact .none
    · next hx => cases h; exact completeOk_effect hx
    · next hx => cases h; exact .cancelled running hx

end Sys2Proof.Machine
end

