-- ==== Sys2Proof/Laws/Step.lean ====
section
/-! SUPPORT. Everything one turn, and so one step, can do when it answers a next state. -/

namespace Sys2Proof.Machine

/-- The ways a turn changes the state. -/
inductive TurnEffect (t : Turn) (s : State) : State → Prop
  /-- An input is executed. -/
  | exec {u : State} (x : Input) (i : Instr) (is : t = .input x) (decodes : decode x = .ok i) (e : ExecEffect i s u) :
      TurnEffect t s u
  /-- The channel returns bytes that are no frame. -/
  | garbage {u : State} (raw : List Byte) (is : t = .input (.response raw)) (e : receiveStep raw s = .next u) :
      TurnEffect t s u
  /-- An X_TX turn. -/
  | send (ok : Bool) (is : t = .chanWrite ok) : TurnEffect t s (sendStep ok s)
  /-- A failed read. -/
  | readFail (is : t = .readFail) : TurnEffect t s (readFailStep s)
  /-- The scheduler's turn. -/
  | scheduler {u : State} (is : t = .scheduler) (e : SchedulerEffect s u) : TurnEffect t s u
  /-- A waiting operation tries again. -/
  | resume {u : State} (i : Instr) (rest : List Instr) (is : t = .resume) (first : s.waiting = i :: rest)
      (e : ExecEffect i (s.withWaiting rest) u) : TurnEffect t s u
  /-- Nobody waits. -/
  | resumeNone (is : t = .resume) : TurnEffect t s s
  /-- The consumer's turn. -/
  | consume (is : t = .consume) : TurnEffect t s s.consumeFact
  /-- The cancellation source's turn. -/
  | cancelIn (is : t = .cancelIn) : TurnEffect t s s.raiseCancel
  /-- The reset input. -/
  | reset (is : t = .reset) : TurnEffect t s s.pullReset

/-- Every next state of a turn is one of the effects. -/
theorem turn_effect {t : Turn} {s u : State} (h : turnStep t s = .next u) : TurnEffect t s u := by
  cases t with
  | input x =>
    simp only [turnStep, inputStep] at h
    split at h
    · next i hd => exact .exec x i rfl hd (exec_effect h)
    · split at h
      · next raw _ => exact .garbage raw rfl h
      · cases h
      · cases h
  | chanWrite ok => cases h; exact .send ok rfl
  | readFail => cases h; exact .readFail rfl
  | scheduler => exact .scheduler rfl (scheduler_effect h)
  | resume =>
    simp only [turnStep, resumeStep] at h
    split at h
    · cases h; exact .resumeNone rfl
    · next i rest hw => exact .resume i rest rfl hw (exec_effect h)
  | consume => cases h; exact .consume rfl
  | cancelIn => cases h; exact .cancelIn rfl
  | reset => cases h; exact .reset rfl

/-! ### Taking a turn touches nothing but the turn list and the draw counter -/

@[simp] theorem takeTurn_crc (s : State) : (takeTurn s).2.crc = s.crc := by unfold takeTurn; split <;> rfl
@[simp] theorem takeTurn_xstate (s : State) : (takeTurn s).2.xstate = s.xstate := by unfold takeTurn; split <;> rfl
@[simp] theorem takeTurn_xframe (s : State) : (takeTurn s).2.xframe = s.xframe := by unfold takeTurn; split <;> rfl
@[simp] theorem takeTurn_xhdr (s : State) : (takeTurn s).2.xhdr = s.xhdr := by unfold takeTurn; split <;> rfl
@[simp] theorem takeTurn_xcnt (s : State) : (takeTurn s).2.xcnt = s.xcnt := by unfold takeTurn; split <;> rfl
@[simp] theorem takeTurn_xwords (s : State) : (takeTurn s).2.xwords = s.xwords := by unfold takeTurn; split <;> rfl
@[simp] theorem takeTurn_pend (s : State) : (takeTurn s).2.pend = s.pend := by unfold takeTurn; split <;> rfl
@[simp] theorem takeTurn_pcmd (s : State) : (takeTurn s).2.pcmd = s.pcmd := by unfold takeTurn; split <;> rfl
@[simp] theorem takeTurn_sstate (s : State) : (takeTurn s).2.sstate = s.sstate := by unfold takeTurn; split <;> rfl
@[simp] theorem takeTurn_rr (s : State) : (takeTurn s).2.rr = s.rr := by unfold takeTurn; split <;> rfl
@[simp] theorem takeTurn_svc (s : State) : (takeTurn s).2.svc = s.svc := by unfold takeTurn; split <;> rfl
@[simp] theorem takeTurn_cancel (s : State) : (takeTurn s).2.cancel = s.cancel := by unfold takeTurn; split <;> rfl
@[simp] theorem takeTurn_fault (s : State) : (takeTurn s).2.fault = s.fault := by unfold takeTurn; split <;> rfl
@[simp] theorem takeTurn_out (s : State) : (takeTurn s).2.out = s.out := by unfold takeTurn; split <;> rfl
@[simp] theorem takeTurn_cfg (s : State) : (takeTurn s).2.cfg = s.cfg := by unfold takeTurn; split <;> rfl
@[simp] theorem takeTurn_result (s : State) : (takeTurn s).2.result = s.result := by unfold takeTurn; split <;> rfl
@[simp] theorem takeTurn_waiting (s : State) : (takeTurn s).2.waiting = s.waiting := by unfold takeTurn; split <;> rfl
@[simp] theorem takeTurn_wire (s : State) : (takeTurn s).2.wire = s.wire := by unfold takeTurn; split <;> rfl

@[simp] theorem takeTurn_hasRoom (s : State) (m : Nat) : (takeTurn s).2.hasRoom m = s.hasRoom m := by simp [State.hasRoom]

@[simp] theorem takeTurn_cons (s : State) (t : Turn) (ts : List Turn) :
    takeTurn { s with turns := t :: ts } = (t, { s with turns := ts }) := rfl

/-- A step is one turn on the state without it. -/
theorem step_effect {s u : State} (h : step s = .next u) : TurnEffect (takeTurn s).1 (takeTurn s).2 u := turn_effect h

end Sys2Proof.Machine
end

