-- ==== Sys2Proof/Tests/Slice0.lean ====
section
/-! SUPPORT. Tests. Expected results are those of spec/95_test_vectors.md (the vector's name stands in each comment) or
words and values written out from the rules. `witness_…` theorems show that the hypotheses of a statement can be met. -/

namespace Sys2Proof.Tests

open Sys2Proof Sys2Proof.Machine

set_option Elab.async false

/-! ### Helpers -/

/-- One field of the state an outcome leaves. -/
def got {α : Type} (o : Host.Outcome State Fault Refusal) (f : State → α) : Option α :=
  match o with
  | .next t => some (f t)
  | .fault _ => none
  | .refused _ => none

/-- The refusal of an outcome. -/
def why (o : Host.Outcome State Fault Refusal) : Option Refusal :=
  match o with
  | .next _ => none
  | .fault _ => none
  | .refused r => some r

/-- The state after reset under EX. -/
def s0 : State := State.reset

/-- An exchange in flight that waits for the answer to F6's request. -/
def sRx : State :=
  { s0 with xstate := .rx, xframe := [0xA5, 0x5A, 0x01, 0x03, 0x04, 0x00, 0x00, 0x02, 0xB5, 0x69],
            xhdr := [0xA5, 0x5A, 0x01, 0x03, 0x04, 0x00, 0x00, 0x02], xcnt := 2 }

/-- The same exchange in X_TX. -/
def sTx : State := { sRx with xstate := .tx }

/-- F6's header. -/
def f6Hdr : List Byte := [0xA5, 0x5A, 0x01, 0x03, 0x04, 0x00, 0x00, 0x02]

/-- F6's response. -/
def f6 : List Byte := [0xA5, 0x5A, 0x01, 0x03, 0x04, 0x00, 0x00, 0x02, 0x00, 0x01, 0x00, 0x03, 0xE7, 0xD1]

/-- F1, the telemetry request. -/
def f1 : List Byte := [0xA5, 0x5A, 0x01, 0x03, 0x01, 0x00, 0x00, 0x0C, 0x34, 0x61]

/-- F2, the settings request. -/
def f2 : List Byte := [0xA5, 0x5A, 0x01, 0x03, 0x02, 0x00, 0x00, 0x04, 0x35, 0xE3]

/-- F5c, the power-limit write of 1600. -/
def f5c : List Byte := [0xA5, 0x5A, 0x01, 0x10, 0x02, 0x02, 0x00, 0x01, 0x06, 0x40, 0x1F, 0x89]

/-- "1600" -/
def p1600 : List Byte := [0x31, 0x36, 0x30, 0x30]

/-- "1601" -/
def p1601 : List Byte := [0x31, 0x36, 0x30, 0x31]

/-- EX with an output of one place. -/
def exOne : Config := { Config.ex with fifoDepth := some 1 }

/-- EX with topic templates: the example of R133, and two with a bracket outside `<id>`. -/
def exTopic : Config :=
  { Config.ex with topicLut := [(0x0100, "solar/ems/<id>/voltage"), (0x0101, "a<b/<id>"), (0x0102, "a<b")] }

/-! ### Well-formed parameters and instructions: a term each check refuses -/

theorem test_ex_wf : Config.ex.wf = true := by decide

theorem test_range_wraps : Config.rangesWf { Config.ex with telem := ⟨0xFFFF, 2⟩ } = false := by decide
theorem test_range_top : Config.rangesWf { Config.ex with telem := ⟨0xFFFF, 1⟩ } = true := by decide
theorem test_confirm_range_wraps : Config.rangesWf { Config.ex with confirm := ⟨0xFFFE, 3⟩ } = false := by decide
theorem test_pair_twice : Config.pairsWf { Config.ex with pairLow := ⟨0x0102, 0x0102, 0x0106, 0x0108, 0x010A⟩ } = false := by
  decide
theorem test_pair_at_top : Config.pairsWf { Config.ex with pairLow := ⟨0xFFFF, 0x0104, 0x0106, 0x0108, 0x010A⟩ } = false := by
  decide
theorem test_pair_overlaps : Config.pairsWf { Config.ex with pairLow := ⟨0x0102, 0x0103, 0x0106, 0x0108, 0x010A⟩ } = false := by
  decide
theorem test_unsigned_is_no_pair : Config.pairUnsignedWf { Config.ex with pairUnsigned := 0x0103 } = false := by decide
theorem test_classes_overlap :
    Config.classesDisjoint (Config.classes { Config.ex with scale100 := [0x0300, 0x0100] }) = false := by decide
theorem test_enum_in_a_class :
    Config.classesDisjoint (Config.classes { Config.ex with enumBatType := 0x0100 }) = false := by decide
theorem test_signed_outside_scales : Config.signedWf { Config.ex with signed16 := [0x0101] } = false := by decide
theorem test_em_state_two_entries : Config.emStateWf { Config.ex with mapEmState := [(0, "a"), (1, "b")] } = false := by decide
theorem test_em_state_key_twice :
    Config.emStateWf { Config.ex with mapEmState := [(0, "a"), (1, "b"), (1, "c")] } = false := by decide

/-- EX with counts up to 16, so that a count can be too large. -/
def ex16 : Config := { Config.ex with maxCount := 16 }

theorem test_ill_enc_read_count : (Instr.encRead 0 17).wf ex16 = false := by decide
theorem test_ill_enc_write_count : (Instr.encWrite 0 17 (List.replicate 17 0)).wf ex16 = false := by decide
theorem test_ill_enc_write_data : (Instr.encWrite 0x0200 2 [1]).wf ex16 = false := by decide
theorem test_ill_dec_resp_count : (Instr.decResp [] f6Hdr 17).wf ex16 = false := by decide
theorem test_ill_dec_resp_hdr : (Instr.decResp [] [0xA5] 2).wf ex16 = false := by decide
theorem test_ill_exchange_count : (Instr.exchange [] f6Hdr 17).wf ex16 = false := by decide
theorem test_ill_exchange_hdr : (Instr.exchange [] [0xA5] 2).wf ex16 = false := by decide
theorem test_ill_req_read_dev : (Instr.reqRead 0x02 0x0100 12 0x6134).wf ex16 = false := by decide
theorem test_ill_req_read_crc : (Instr.reqRead 0x01 0x0100 12 0x6135).wf ex16 = false := by decide +kernel
theorem test_ill_req_read_count : (Instr.reqRead 0x01 0x0100 17 0x6134).wf ex16 = false := by decide
theorem test_well_req_read : (Instr.reqRead 0x01 0x0100 12 0x6134).wf ex16 = true := by decide +kernel
theorem test_ill_req_write_data : (Instr.reqWrite 0x01 0x0202 1 [] 0x891F).wf ex16 = false := by decide
theorem test_ill_req_write_crc : (Instr.reqWrite 0x01 0x0202 1 [1600] 0).wf ex16 = false := by decide +kernel
theorem test_well_req_write : (Instr.reqWrite 0x01 0x0202 1 [1600] 0x891F).wf ex16 = true := by decide +kernel
theorem test_ill_rsp_read_data : (Instr.rspRead 0x01 0x0400 2 [1] 0xD1E7).wf ex16 = false := by decide
theorem test_ill_rsp_read_crc : (Instr.rspRead 0x01 0x0400 2 [1, 3] 0).wf ex16 = false := by decide +kernel
theorem test_well_rsp_read : (Instr.rspRead 0x01 0x0400 2 [1, 3] 0xD1E7).wf ex16 = true := by decide +kernel
theorem test_ill_rsp_write_ack : (Instr.rspWrite 0x01 0x0202 1 [1600] 0x891F).wf ex16 = false := by decide
theorem test_well_rsp_write : (Instr.rspWrite 0x01 0x0202 1 [] 0xE3D1).wf ex16 = true := by decide +kernel

/-! ### Decoding: every constructor from a word of R77 or R70 -/

theorem test_decode_crc_init : decode (.op { op := 0b0001 }) = .ok .crcInit := by decide
theorem test_decode_crc_byte : decode (.op { op := 0b0010, b := 0x5A }) = .ok (.crcByte 0x5A) := by decide
theorem test_decode_enc_read : decode (.op { op := 0b0011, reg := 0x0100, count := 12 }) = .ok (.encRead 0x0100 12) := by decide
theorem test_decode_enc_write :
    decode (.op { op := 0b0100, reg := 0x0202, count := 1, data := [1600] }) = .ok (.encWrite 0x0202 1 [1600]) := by decide
theorem test_decode_dec_resp :
    decode (.op { op := 0b0101, raw := f6, hdr := f6Hdr, count := 2 }) = .ok (.decResp f6 f6Hdr 2) := by decide
theorem test_decode_interp : decode (.op { op := 0b0110, a := 0x0100, w := 123 }) = .ok (.interp 0x0100 123) := by decide
theorem test_decode_topic : decode (.op { op := 0b0111, a := 0x0600 }) = .ok (.topic 0x0600) := by decide
theorem test_decode_rsm_begin : decode (.op { op := 0b1000 }) = .ok .rsmBegin := by decide
theorem test_decode_rsm_word : decode (.op { op := 0b1001, a := 0x0102, w := 5 }) = .ok (.rsmWord 0x0102 5) := by decide
theorem test_decode_rsm_end : decode (.op { op := 0b1010 }) = .ok .rsmEnd := by decide
theorem test_decode_exchange :
    decode (.op { op := 0b1011, frame := f1, hdr := f6Hdr, count := 12 }) = .ok (.exchange f1 f6Hdr 12) := by decide
theorem test_decode_cmd_post :
    decode (.op { op := 0b1100, topic := "x", payload := [0x6F, 0x6E] }) = .ok (.cmdPost "x" [0x6F, 0x6E]) := by decide
theorem test_decode_cmd_take : decode (.op { op := 0b1101 }) = .ok .cmdTake := by decide
theorem test_decode_cmd_retire : decode (.op { op := 0b1110, kind := 0b01, gen := 9 }) = .ok (.cmdRetire .bypass 9) := by decide
/-- F1. -/
theorem test_decode_req_read : decode (.request f1) = .ok (.reqRead 0x01 0x0100 12 0x6134) := by decide
/-- F5c. -/
theorem test_decode_req_write : decode (.request f5c) = .ok (.reqWrite 0x01 0x0202 1 [1600] 0x891F) := by decide
/-- F6. -/
theorem test_decode_rsp_read : decode (.response f6) = .ok (.rspRead 0x01 0x0400 2 [1, 3] 0xD1E7) := by decide
/-- F9. -/
theorem test_decode_rsp_write :
    decode (.response [0xA5, 0x5A, 0x01, 0x10, 0x02, 0x02, 0x00, 0x01, 0xD1, 0xE3]) = .ok (.rspWrite 0x01 0x0202 1 [] 0xE3D1) := by
  decide
theorem test_reserved_op_0 : decode (.op { op := 0b0000 }) = .error .reservedOp := by decide
theorem test_reserved_op_f : decode (.op { op := 0b1111 }) = .error .reservedOp := by decide
theorem test_reserved_kind : decode (.op { op := 0b1110, kind := 0b11 }) = .error .reservedKind := by decide
/-- Another marker, another function code, an odd tail, a read request with data. -/
theorem test_no_frame_marker : decode (.request [0xA5, 0x5B, 0x01, 0x03, 0, 0, 0, 0, 0, 0]) = .error .notAFrame := by decide
theorem test_no_frame_function : decode (.request [0xA5, 0x5A, 0x01, 0x06, 0, 0, 0, 0, 0, 0]) = .error .notAFrame := by decide
theorem test_no_frame_odd : decode (.request [0xA5, 0x5A, 0x01, 0x10, 0, 0, 0, 0, 0, 0, 0]) = .error .notAFrame := by decide
theorem test_no_frame_read_data : decode (.request [0xA5, 0x5A, 0x01, 0x03, 0, 0, 0, 1, 0, 0, 0, 0]) = .error .notAFrame := by decide
/-- The rows CMD_TAKE and REQ_READ of the opcode table, with every free bit zero. -/
theorem test_table_word_op : decodeTableWord 8 0xD = some .cmdTake := by decide
theorem test_table_word_frame : decodeTableWord 32 0xA55A0003 = some (.reqRead 0x00 0 0 0) := by decide
theorem test_table_word_runs : got (step (s0.withFetchWord 32 0xA55A0010)) State.xstate = some .tx := by decide

/-! ### One instruction, one step -/

/-- R100's example. -/
theorem test_crc_init : got (exec .crcInit { s0 with crc := 0x1234 }) State.crc = some 0xFFFF := by decide
/-- C2 and R101's example. -/
theorem test_crc_byte : got (exec (.crcByte 0x00) s0) State.crc = some 0x40BF := by decide +kernel
/-- C6: the second byte of the boot marker. -/
theorem test_crc_byte_second : got (exec (.crcByte 0x5A) { s0 with crc := 0x3B7F }) State.crc = some 0xDBFA := by decide +kernel
/-- C4, C7: the published check value, and the residue of a whole frame. -/
theorem test_crc16_check : crc16 [0x31, 0x32, 0x33, 0x34, 0x35, 0x36, 0x37, 0x38, 0x39] = 0x4B37 := by decide +kernel
theorem test_crc16_residue : crc16 f1 = 0 := by decide +kernel
/-- F1. -/
theorem test_enc_read : got (exec (.encRead 0x0100 12) s0) State.result = some (.frame f1) := by decide +kernel
theorem test_enc_read_too_large : why (exec (.encRead 0x0100 17) (State.resetWith ex16)) = some .countTooLarge := by decide
/-- F5c, F5d. -/
theorem test_enc_write : got (exec (.encWrite 0x0202 1 [1600]) s0) State.result = some (.frame f5c) := by decide +kernel
theorem test_enc_write_data : why (exec (.encWrite 0x0200 2 [1]) s0) = some .dataLengthMismatch := by decide
/-- F7 (truncation) and F11 (checksum). -/
theorem test_dec_resp_ok : got (exec (.decResp (f6 ++ [0x55]) f6Hdr 2) s0) State.result = some (.decoded (.ok [1, 3])) := by
  decide +kernel
theorem test_dec_resp_checksum : got (exec (.decResp (f6.set 9 0x00) f6Hdr 2) s0) State.result = some (.decoded .checksumError) := by
  decide +kernel
/-- F8, F10. -/
theorem test_parse_short : parseResponse (f6.take 13) f6Hdr 2 = .lengthError := by decide
theorem test_parse_header : parseResponse (f6.set 3 0x83) f6Hdr 2 = .headerMismatch := by decide
/-- I4, I14. -/
theorem test_interp_signed : got (exec (.interp 0x0301 0xFFFF) s0) State.result = some (.value (.num (-1 / 10))) := by
  decide +kernel
theorem test_interp_fallthrough : got (exec (.interp 0x0203 9) s0) State.result = some (.value (.label "Offline")) := by decide
/-- I19, and R133's example. -/
theorem test_topic_none : got (exec (.topic 0x0600) s0) State.result = some (.topic none) := by decide
theorem test_topic : got (exec (.topic 0x0100) (State.resetWith exTopic)) State.result =
    some (.topic (some "solar/ems/7/voltage")) := by decide +kernel
/-- R151's and R153's examples. -/
theorem test_rsm_begin : got (exec .rsmBegin { s0 with pend := ⟨some 0xFFFF, none, none, none, none⟩ }) State.pend =
    some pendEmpty := by decide
theorem test_rsm_end : got (exec .rsmEnd { s0 with pend := ⟨some 0x1234, none, none, none, none⟩ }) (fun t => (t.pend, t.out)) =
    some (pendEmpty, []) := by decide
/-- A1, A5. -/
theorem test_rsm_word_combined :
    got (exec (.rsmWord 0x0103 0xFFFF) { s0 with pend := ⟨some 0xFFFF, none, none, none, none⟩ }) (fun t => (t.out, t.pend)) =
      some ([⟨0x0102, .num (-1 / 10)⟩], pendEmpty) := by decide +kernel
theorem test_rsm_word_dropped : got (exec (.rsmWord 0x0103 0x1111) s0) (fun t => (t.out, t.result)) =
    some ([], .reassembled .dropped) := by decide
/-- A6b: the unsigned pair. -/
theorem test_unsigned_pair : responseFacts Config.ex 0x010A [0xFFFF, 0xFFFF] = [⟨0x010A, .num (4294967295 / 10)⟩] := by
  decide +kernel
/-- X1, X7. -/
theorem test_exchange_cancelled : got (exec (.exchange f1 f6Hdr 12) { s0 with cancel := true }) (fun t => (t.xstate, t.wire)) =
    some (.cancelled, []) := by decide
/-- A frame beyond the bound of R20 (42 bytes under `ex16`) is accepted with every other effect of R173. -/
theorem test_exchange_over_long : got (exec (.exchange (List.replicate 43 0) f6Hdr 2) (State.resetWith ex16))
    (fun t => (t.xhdr, t.xcnt, t.xstate)) = some (f6Hdr, 2, .tx) := by decide
theorem test_exchange_holds : got (exec (.exchange f1 f6Hdr 12) sRx) (fun t => (t.xframe, t.waiting)) =
    some (sRx.xframe, [.exchange f1 f6Hdr 12]) := by decide
/-- K2, K1. -/
theorem test_post_accepted : got (exec (.cmdPost "solar/ems/7/EMS_Power_Limit/set" p1600) s0) (fun t => t.pcmd.pl) =
    some ⟨true, 1600, 1⟩ := by decide
theorem test_post_rejected : got (exec (.cmdPost "solar/ems/7/EMS_Power_Limit/set" p1601) s0) (fun t => (t.pcmd.pl, t.result)) =
    some (⟨false, 0, 0⟩, .posted .rejected) := by decide
/-- K4, K3, K6, K8. -/
theorem test_leading_zero : validatePowerLimit [0x30, 0x31, 0x30, 0x30] = some 100 := by decide
theorem test_sign : validatePowerLimit [0x2D, 0x31] = none := by decide
theorem test_case : validateSwitch Config.ex [0x4F, 0x4E] = none := by decide
theorem test_other_device : route Config.ex "solar/ems/8/EMS_EM/turn" = none := by decide
/-- K10. -/
theorem test_take : got (exec .cmdTake { s0 with pcmd := ⟨⟨true, 1, 3⟩, ⟨false, 0, 0⟩, ⟨true, 800, 1⟩⟩ }) State.result =
    some (.taken (some ⟨.em, 1, 3⟩)) := by decide
/-- K11, and the clearing case. -/
theorem test_retire_kept : got (exec (.cmdRetire .pl 1) { s0 with pcmd := ⟨⟨false, 0, 0⟩, ⟨false, 0, 0⟩, ⟨true, 900, 2⟩⟩ })
    (fun t => (t.pcmd.pl, t.result)) = some (⟨true, 900, 2⟩, .retired .kept) := by decide
theorem test_retire_cleared : got (exec (.cmdRetire .pl 2) { s0 with pcmd := ⟨⟨false, 0, 0⟩, ⟨false, 0, 0⟩, ⟨true, 900, 2⟩⟩ })
    (fun t => (t.pcmd.pl, t.result)) = some (⟨false, 900, 2⟩, .retired .cleared) := by decide
/-- The request frames of F1 and F5c start their exchanges with the header and count of R115. -/
theorem test_req_read : got (exec (.reqRead 0x01 0x0100 12 0x6134) s0) (fun t => (t.xframe, t.xhdr, t.xcnt, t.xstate)) =
    some (f1, f1.take 8, 12, .tx) := by decide
theorem test_req_write : got (exec (.reqWrite 0x01 0x0202 1 [1600] 0x891F) s0) (fun t => (t.xframe, t.xhdr, t.xcnt, t.xstate)) =
    some (f5c, f5c.take 8, 0, .tx) := by decide
/-- F6 ends its exchange; with a wrong checksum it retries. -/
theorem test_rsp_read : got (exec (.rspRead 0x01 0x0400 2 [1, 3] 0xD1E7) sRx) (fun t => (t.xwords, t.xstate)) =
    some ([1, 3], .ok) := by decide +kernel
theorem test_rsp_read_retry : got (exec (.rspRead 0x01 0x0400 2 [1, 3] 0xD1E8) sRx) State.xstate = some .tx := by decide +kernel
/-- F9 ends the exchange of a write; a write response does not answer a read. -/
theorem test_rsp_write : got (exec (.rspWrite 0x01 0x0202 1 [] 0xE3D1) { sRx with xhdr := f5c.take 8, xcnt := 0 })
    (fun t => (t.xwords, t.xstate)) = some ([], .ok) := by decide +kernel
theorem test_rsp_write_retry : got (exec (.rspWrite 0x01 0x0202 1 [] 0xE3D1) sRx) State.xstate = some .tx := by decide +kernel

/-! ### One turn of the machine -/

/-- X4: a failed write. -/
theorem test_write_fails : got (turnStep (.chanWrite false) sTx) (fun t => (t.cancel, t.fault, t.xstate, t.wire)) =
    some (true, true, .cancelled, []) := by decide
/-- X5: a failed read. -/
theorem test_read_fails : got (turnStep .readFail sRx) (fun t => (t.cancel, t.fault, t.xstate)) = some (true, true, .cancelled) := by
  decide
/-- X6: a valid response under cancellation. -/
theorem test_response_under_cancellation :
    got (turnStep (.input (.response f6)) { sRx with cancel := true }) State.xstate = some .ok := by decide +kernel
/-- P4 step 9: no write after cancellation. -/
theorem test_no_write : got (turnStep (.chanWrite true) { sTx with cancel := true }) (fun t => (t.xstate, t.wire)) =
    some (.cancelled, []) := by decide
/-- P3 step 1: the first issue step after reset. -/
theorem test_first_issue : got (turnStep .scheduler s0) (fun t => (t.xframe, t.xcnt, t.xstate)) = some (f1, 12, .tx) := by
  decide +kernel
/-- Q2: the diagnostic range at `rr = 2`. -/
theorem test_diagnostic_at_2 : got (turnStep .scheduler { s0 with sstate := .diag, rr := 2 }) State.xframe =
    some [0xA5, 0x5A, 0x01, 0x03, 0x04, 0x00, 0x00, 0x02, 0xB5, 0x69] := by decide +kernel
/-- P3 steps 7 to 9: the command write. -/
theorem test_service_write : got (turnStep .scheduler { s0 with sstate := .svcWrite, svc := some ⟨.pl, 1600, 1⟩ })
    (fun t => (t.xframe, t.xcnt)) = some (f5c, 0) := by decide +kernel
/-- P3 steps 10 to 12: the confirmed command is retired. -/
theorem test_confirmed :
    got (turnStep .scheduler { s0 with sstate := .svcConfirm, svc := some ⟨.pl, 1600, 1⟩, xstate := .ok,
                                       xwords := [1, 0, 1600, 1], pcmd := ⟨⟨false, 0, 0⟩, ⟨false, 0, 0⟩, ⟨true, 1600, 1⟩⟩ })
      (fun t => (t.pcmd.pl, t.svc, t.sstate, t.out)) =
    some (⟨false, 1600, 1⟩, none, .diag,
      [⟨0x0200, .label "on"⟩, ⟨0x0201, .label "off"⟩, ⟨0x0202, .num 1600⟩, ⟨0x0203, .label "Online"⟩]) := by decide +kernel
/-- The counter wraps (R195). -/
theorem test_counter_wraps : got (turnStep .scheduler { s0 with sstate := .diag, rr := 4, xstate := .ok }) (fun t => t.rr.val) =
    some 0 := by decide
/-- R257: a full output holds the complete step. -/
theorem test_back_pressure :
    got (turnStep .scheduler { State.resetWith exOne with sstate := .diag, xstate := .ok, xwords := [1], out := [⟨0, .num 0⟩] })
      (fun t => (t.xstate, t.sstate, t.out.length)) = some (.ok, .diag, 1) := by decide
/-- R57: the consumer takes the oldest fact. -/
theorem test_consume : got (turnStep .consume { s0 with out := [⟨1, .num 1⟩, ⟨2, .num 2⟩] }) State.out = some [⟨2, .num 2⟩] := by
  decide
/-- R240: reset leaves S_HALTED and keeps the parameters. -/
theorem test_reset : got (turnStep .reset { State.resetWith exOne with sstate := .halted, cancel := true, fault := true })
    (fun t => (t.sstate, t.cancel, t.fault, t.cfg.fifoDepth)) = some (.telem, false, false, some 1) := by decide

/-! ### Witnesses: the hypotheses of the statements can be met, clause by clause -/

theorem witness_reserved_ops : (∃ p : PortWord, p.op = 0x0) ∧ ∃ p : PortWord, p.op = 0xF := ⟨⟨{ op := 0 }, rfl⟩, ⟨{ op := 0xF }, rfl⟩⟩
theorem witness_reserved_kind : ∃ p : PortWord, p.op = 0xE ∧ p.kind = 3 := ⟨{ op := 0xE, kind := 3 }, rfl, rfl⟩
/-- EncodeOfDecodedFrameIsTheFrame, both clauses. -/
theorem witness_decoded_frames : (∃ i, decode (.request f5c) = .ok i) ∧ ∃ i, decode (.response f6) = .ok i :=
  ⟨⟨_, test_decode_req_write⟩, ⟨_, test_decode_rsp_read⟩⟩
theorem witness_step_runs : takeTurn { s0 with turns := [.input (.op { op := 1 })] } = (.input (.op { op := 1 }), s0) ∧
    decode (.op { op := 1 }) = .ok .crcInit := by decide
/-- ReadResponseRoundTrip, at F6's words and at the empty list. -/
theorem witness_round_trip : ([1, 3] : List Word).length = (2 : Word).toNat ∧
    (∃ f, readFrame Config.ex 0x0400 2 = .ok f) ∧ ([] : List Word).length = (0 : Word).toNat ∧
    ∃ f, readFrame Config.ex 0xFFFF 0 = .ok f := ⟨rfl, ⟨_, rfl⟩, rfl, ⟨_, rfl⟩⟩
/-- SingleByteMutationIsDetected, at the last header byte, the first data byte, the last trailer byte and the first byte
beyond the frame. -/
theorem witness_mutation : decodeResp Config.ex (f6 ++ [0x55]) f6Hdr 2 = .ok (.ok [1, 3]) ∧
    ∀ j ∈ [7, 8, 13, 14], j < (f6 ++ [0x55]).length ∧ (0xAA : Byte) ≠ (f6 ++ [0x55]).getD j 0 := by decide +kernel
/-- InterpGivesTheClassValue: an address of each class, and one of none. -/
theorem witness_interp_classes : s0.cfg.wf = true ∧ (0x0101 : Word) ∈ s0.cfg.boolOnOff ∧ (0x0500 : Word) ∈ s0.cfg.boolOnline ∧
    (0x0301 : Word) ∈ s0.cfg.scale10 ∧ (0x0300 : Word) ∈ s0.cfg.scale100 ∧ (0x0202 : Word) ∈ s0.cfg.scale1 ∧
    (∀ l ∈ s0.cfg.classes, (0xFFFF : Word) ∉ l) := by decide
/-- TopicSubstitutesTheDeviceId, its clauses, with brackets outside `<id>`. -/
theorem witness_topic :
    let c := (State.resetWith exTopic).cfg
    let tag := ['<', 'i', 'd', '>']
    c.topicLut.lookup 0x0600 = none ∧
    c.topicLut.lookup 0x0100 = some (String.ofList ("solar/ems/".toList ++ tag ++ "/voltage".toList)) ∧
    ¬ tag <:+: "solar/ems/".toList ∧ ¬ tag <:+: "/voltage".toList ∧
    c.topicLut.lookup 0x0101 = some (String.ofList ("a<b/".toList ++ tag ++ [])) ∧ ¬ tag <:+: "a<b/".toList ∧ ¬ tag <:+: [] ∧
    c.topicLut.lookup 0x0102 = some (String.ofList "a<b".toList) ∧ ¬ tag <:+: "a<b".toList := by
  decide +kernel
/-- RsmWordHoldsALowWord; RsmWordCombinesOrDropsAHighWord: the unsigned and a signed pair with the low word held, room, and a
pair without its low word. -/
theorem witness_rsm_pairs :
    let s := { s0 with pend := ⟨some 1, none, none, none, some 2⟩ }
    s.cfg.wf = true ∧ s.pend.get 0 = some 1 ∧ s.pend.get 4 = some 2 ∧ s.pend.get 1 = none ∧ s.hasRoom 1 = true ∧
    s.cfg.pairLow.get 4 = s.cfg.pairUnsigned ∧ s.cfg.pairDivUnsigned ≠ 0 ∧ s.cfg.pairLow.get 0 ≠ s.cfg.pairUnsigned := by decide
/-- RsmWordPassesOtherWords, at the lowest and the highest address. -/
theorem witness_rsm_passes : s0.hasRoom 1 = true ∧ (∀ k, (0 : Word) ≠ s0.cfg.pairLow.get k) ∧
    (∀ k, (0xFFFF : Word) ≠ s0.cfg.pairLow.get k) ∧
    ∀ k, (0xFFFF : Word) ≠ 0 → (0xFFFF : Word) - 1 ≠ s0.cfg.pairLow.get k := by decide
/-- RsmWordWaitsWhileTheOutputIsFull, both outcomes. -/
theorem witness_rsm_waits :
    let s := { State.resetWith exOne with out := [⟨0, .num 0⟩], pend := ⟨some 1, none, none, none, none⟩ }
    s.hasRoom 1 = false ∧ (reassemble s.cfg s.pend 0x0103 2).outcome = .combined ∧
    (reassemble s.cfg s.pend 0x0600 2).outcome = .passed := by decide
theorem witness_plain_response : ∀ n, n < ([1, 0, 1600, 1] : List Word).length →
    pairSlot Config.ex (0x0200 + BitVec.ofNat 16 n) = none ∧ highSlot Config.ex (0x0200 + BitVec.ofNat 16 n) = none := by decide
/-- ProcessRespEqualsItsExpansion, and every statement with an unbounded output. -/
theorem witness_unbounded : s0.cfg.fifoDepth = none := rfl
/-- ExchangeIsAcceptedWhenIdle: operands for each refusal and for acceptance, a frame at the bound and one beyond it. -/
theorem witness_exchange_idle : (State.resetWith ex16).xstate = .idle ∧ (17 : Word).toNat > ex16.maxCount.toNat ∧
    (16 : Word).toNat ≤ ex16.maxCount.toNat ∧ ([0xA5] : List Byte).length ≠ 8 ∧ f6Hdr.length = 8 ∧
    (List.replicate 42 0 : List Byte).length ≤ 10 + 2 * ex16.maxCount.toNat ∧
    ¬ (List.replicate 43 0 : List Byte).length ≤ 10 + 2 * ex16.maxCount.toNat := by decide
/-- ExchangeWaitsWhileBusy: the four busy states; each operation that can wait at the head of the list, with the channel free
and its operands in their types (the longest frame under `ex16`); a word of a response with room and without. -/
theorem witness_exchange_busy : (∀ x ∈ [XState.tx, .rx, .ok, .cancelled], { s0 with xstate := x }.xstate ≠ .idle) ∧
    s0.waiting = [] ∧ (State.resetWith ex16).xstate = .idle ∧ (16 : Word) ≤ ex16.maxCount ∧ f6Hdr.length = 8 ∧
    (List.replicate 42 0 : List Byte).length ≤ 10 + 2 * ex16.maxCount.toNat ∧
    (List.replicate 16 0 : List Word).length = (16 : Word).toNat ∧ ex16.writeAckCount ≤ ex16.maxCount ∧
    s0.hasRoom (reassemble s0.cfg s0.pend 0x0600 1).facts.length = true ∧
    (let s := { State.resetWith exOne with out := [⟨0, .num 0⟩] }
     s.hasRoom (reassemble s.cfg s.pend 0x0600 1).facts.length = false) := by decide
theorem test_resume_req_read :
    got (turnStep .resume { s0 with waiting := [.reqRead 0x01 0x0100 12 0x6134, .rsmWord 1 1] }) (fun t => (t.xframe, t.waiting)) =
      some (f1, [.rsmWord 1 1]) := by decide
theorem test_resume_rsm_word_still_full :
    got (turnStep .resume { State.resetWith exOne with out := [⟨0, .num 0⟩], waiting := [.rsmWord 0x0600 1, .rsmWord 1 1] })
      (fun t => (t.waiting, t.out.length)) = some ([.rsmWord 1 1, .rsmWord 0x0600 1], 1) := by decide
/-- RequestFrameStartsItsExchange: the channel free, and operands for every link of its chains. -/
theorem witness_request_frame : (State.resetWith ex16).xstate = .idle ∧ (17 : Word).toNat > ex16.maxCount.toNat ∧
    ¬ (16 : Word).toNat > ex16.maxCount.toNat ∧ ([1600] : List Word).length ≠ (16 : Word).toNat ∧
    (List.replicate 16 0 : List Word).length = (16 : Word).toNat ∧ ¬ ex16.writeAckCount.toNat > ex16.maxCount.toNat ∧
    ({ ex16 with writeAckCount := 17 } : Config).writeAckCount.toNat > ex16.maxCount.toNat := by decide
theorem test_req_write_data : why (exec (.reqWrite 0x01 0x0202 2 [1600] 0) s0) = some .dataLengthMismatch := by decide
theorem test_req_read_too_large : why (exec (.reqRead 0x01 0x0100 17 0) (State.resetWith ex16)) = some .countTooLarge := by decide
/-- ResponseFrameIsJudgedInRx and the X_RX rows of ExchangeFsmFollowsItsTable. -/
theorem witness_in_rx : sRx.xstate = .rx ∧ sRx.xhdr.length = 8 ∧ sRx.xcnt ≤ sRx.cfg.maxCount ∧ s0.xstate ≠ .rx ∧
    decodeResp sRx.cfg f6 sRx.xhdr sRx.xcnt = .ok (.ok [1, 3]) ∧
    decodeResp sRx.cfg [] sRx.xhdr sRx.xcnt = .ok .lengthError := by decide +kernel
/-- The X_TX and outcome rows of ExchangeFsmFollowsItsTable, and RetryHasNoBound. -/
theorem witness_in_tx : sTx.xstate = .tx ∧ sTx.cancel = false ∧ { sTx with cancel := true }.cancel = true ∧ sTx.xhdr.length = 8 ∧
    sTx.xcnt ≤ sTx.cfg.maxCount ∧
    (∀ x ∈ [XState.ok, .cancelled], { s0 with xstate := x }.sstate ≠ .halted ∧ { s0 with xstate := x }.cfg.fifoDepth = none) := by
  decide
/-- A step that is not reset, of an exchange in flight (ChannelWritesOnlyFromTx, ExchangeInFlightKeepsItsRequest,
CancelIsStickyAndHasTwoCauses, NoStepChangesTheParameters, OutputIsAQueue). -/
theorem witness_step_in_flight : let s := { sTx with turns := [.chanWrite true] }
    got (step s) State.xstate = some .rx ∧ (takeTurn s).1 ≠ .reset ∧ s.xstate = .tx := by decide
/-- CancelIsStickyAndHasTwoCauses: both causes raise `cancel`. -/
theorem witness_cancel_rises : got (step { s0 with turns := [.cancelIn] }) State.cancel = some true ∧
    got (step { sTx with turns := [.chanWrite false] }) State.cancel = some true ∧ s0.cancel = false ∧ sTx.cancel = false := by decide
/-- NoChannelWriteAfterCancellation. -/
theorem witness_after_cancellation : let s := { sTx with cancel := true }
    s.cancel = true ∧ (∀ x ∈ [Turn.chanWrite true, .scheduler, .scheduler], x ≠ .reset) ∧
    got (runTurns [.chanWrite true, .scheduler, .scheduler] s) State.sstate = some .halted := by decide
/-- TransportFailureHaltsTheBlock, both causes. -/
theorem witness_transport_failure : sTx.sstate ≠ .halted ∧ sTx.xstate = .tx ∧ sTx.cancel = false ∧ sRx.sstate ≠ .halted ∧
    sRx.xstate = .rx := by decide
/-- IssueStepStartsTheStatesExchange, every state and cancellation. -/
theorem witness_issue : s0.xstate = .idle ∧ s0.cancel = false ∧ s0.cfg.telem.count ≤ s0.cfg.maxCount ∧
    s0.cfg.confirm.count ≤ s0.cfg.maxCount ∧ (∀ i : Fin 5, (s0.cfg.diag.get i).count ≤ s0.cfg.maxCount) ∧
    (1 : Word) ≤ s0.cfg.maxCount ∧ s0.cfg.writeAckCount ≤ s0.cfg.maxCount ∧
    (∀ x ∈ [SState.telem, .svcWrite, .svcConfirm, .diag], { s0 with sstate := x, svc := some ⟨.em, 1, 1⟩ }.sstate ≠ .halted) ∧
    { s0 with cancel := true }.cancel = true := by decide
/-- SchedulerWaitsForTheExchangeAndForRoom: a complete step of each kind without room. -/
theorem witness_no_room : ∀ p ∈ [(SState.telem, exOne.telem), (.svcConfirm, exOne.confirm), (.diag, exOne.diag.get 0)],
    let s := { State.resetWith exOne with xstate := .ok, sstate := p.1, xwords := [1, 1], out := [⟨0, .num 0⟩] }
    s.xstate = .ok ∧ s.sstate = p.1 ∧ s.hasRoom (responseFacts s.cfg p.2.start s.xwords).length = false := by decide +kernel
/-- The complete steps with room (TelemetryCompletionTakesACommand, WriteCompletionLeadsToConfirmation,
ConfirmationCompletionRetiresTheCommand, DiagnosticCompletionAdvancesTheCounter), a finite output exactly filled. -/
theorem witness_room : ∀ p ∈ [(SState.telem, exOne.telem), (.svcConfirm, exOne.confirm), (.diag, exOne.diag.get 0)],
    let s := { State.resetWith exOne with xstate := .ok, sstate := p.1, xwords := [1], svc := some ⟨.em, 1, 1⟩ }
    s.xstate = .ok ∧ s.svc = some ⟨.em, 1, 1⟩ ∧ (responseFacts s.cfg p.2.start s.xwords).length = 1 ∧
    s.hasRoom (responseFacts s.cfg p.2.start s.xwords).length = true := by decide +kernel
theorem witness_write_complete : let s := { s0 with sstate := .svcWrite, xstate := .ok }
    s.sstate = .svcWrite ∧ s.xstate = .ok := by decide

/-- The reset state under EX, halted by cancellation. -/
def sHalted : State := { s0 with sstate := .halted, cancel := true, turns := [.chanWrite true] }

theorem inv_halted : Inv sHalted where
  frame := by decide
  header := by decide
  count := by decide
  words := by decide
  service := by decide
  latched := by intro v hv; cases hv
  dirty := by intro k; cases k <;> decide
  failure := by decide
  cancelled := by decide
  halted := by decide
  room := by intro d hd; cases hd
  waits := by intro i hi; cases hi

/-- CancellationHaltsUntilReset, both clauses. -/
theorem witness_halted : Inv sHalted ∧ sHalted.sstate = .halted ∧ got (step sHalted) State.sstate = some .halted ∧
    (takeTurn sHalted).1 ≠ .reset ∧ { s0 with xstate := .cancelled }.sstate ≠ .halted :=
  ⟨inv_halted, by decide, by decide, by decide, by decide⟩
/-- CycleWithoutCommandIsTwoReads and CycleServicesOneCommand at EX: the frames exist and the lengths fit. -/
theorem witness_cycle : s0.sstate = .telem ∧ s0.xstate = .idle ∧ s0.cancel = false ∧ firstDirty s0.pcmd = none ∧
    s0.cfg.fifoDepth = none ∧ readFrame s0.cfg s0.cfg.telem.start s0.cfg.telem.count = .ok f1 ∧
    readFrame s0.cfg (s0.cfg.diag.get s0.rr).start (s0.cfg.diag.get s0.rr).count = .ok f2 ∧
    (List.replicate 12 0 : List Word).length = s0.cfg.telem.count.toNat ∧
    (List.replicate 4 0 : List Word).length = (s0.cfg.diag.get s0.rr).count.toNat := by decide +kernel
theorem witness_service_cycle : let s := { s0 with pcmd := ⟨⟨false, 0, 0⟩, ⟨false, 0, 0⟩, ⟨true, 1600, 1⟩⟩ }
    firstDirty s.pcmd = some ⟨.pl, 1600, 1⟩ ∧ writeFrame s.cfg (cmdReg s.cfg .pl) 1 [1600] = .ok f5c ∧
    s.cfg.writeAckCount ≤ s.cfg.maxCount ∧ ([] : List Word).length = s.cfg.writeAckCount.toNat ∧
    readFrame s.cfg s.cfg.confirm.start s.cfg.confirm.count = .ok f2 ∧
    (List.replicate 4 0 : List Word).length = s.cfg.confirm.count.toNat := by decide +kernel
/-- CmdPostAcceptsOrRejects: the three topics with a valid payload; a routed topic with an invalid one; no topic. -/
theorem witness_post : ("solar/ems/7/EMS_EM/turn" = "solar/ems/" ++ s0.cfg.deviceId ++ "/EMS_EM/turn") ∧
    ("solar/ems/7/EMS_Bypass/turn" = "solar/ems/" ++ s0.cfg.deviceId ++ "/EMS_Bypass/turn") ∧
    ("solar/ems/7/EMS_Power_Limit/set" = "solar/ems/" ++ s0.cfg.deviceId ++ "/EMS_Power_Limit/set") ∧
    validate s0.cfg .em [0x6F, 0x6E] = some 1 ∧ validate s0.cfg .bypass [0x6F, 0x66, 0x66] = some 0 ∧
    validate s0.cfg .pl p1600 = some 1600 ∧
    (∀ k, route s0.cfg "solar/ems/7/EMS_Power_Limit/set" = some k → validate s0.cfg k p1601 = none) ∧
    (∀ k, route s0.cfg "other" = some k → validate s0.cfg k p1600 = none) :=
  ⟨by decide, by decide, by decide, by decide, by decide, by decide, by intro k; cases k <;> decide, by intro k; cases k <;> decide⟩
/-- PowerLimitAcceptsDecimalsUpTo1600: the digits of 1600 and 1601, and a payload that is no digit string. -/
theorem witness_power_limit : p1600 = digitBytes [1, 6, 0, 0] ∧ p1601 = digitBytes [1, 6, 0, 1] ∧
    ∀ ds : List (Fin 10), ds ≠ [] → ([] : List Byte) ≠ digitBytes ds := by
  refine ⟨by decide, by decide, ?_⟩
  intro ds hds
  cases ds with
  | nil => exact absurd rfl hds
  | cons d ds => simp [digitBytes]

/-- A power-limit command of 800 in service. -/
def sService : State :=
  { s0 with sstate := .svcConfirm, svc := some ⟨.pl, 800, 1⟩, pcmd := ⟨⟨false, 0, 0⟩, ⟨false, 0, 0⟩, ⟨true, 800, 1⟩⟩,
            xstate := .ok, turns := [.scheduler] }

theorem inv_service : Inv sService where
  frame := by decide
  header := by decide
  count := by decide
  words := by decide
  service := by decide
  latched := by intro v hv; cases hv; decide
  dirty := by intro k; cases k <;> decide
  failure := by decide
  cancelled := by decide
  halted := by decide
  room := by intro d hd; cases hd
  waits := by intro i hi; cases hi

/-- PostDuringServiceSurvivesTheRetire (P5). -/
theorem witness_post_during_service : Inv sService ∧ sService.svc = some ⟨.pl, 800, 1⟩ ∧
    route sService.cfg "solar/ems/7/EMS_Power_Limit/set" = some .pl ∧ validate sService.cfg .pl p1600 = some 1600 ∧
    got (execAll [.cmdPost "solar/ems/7/EMS_Power_Limit/set" p1600, .cmdRetire .pl 1] sService) (fun t => t.pcmd.pl.gen) = some 2 :=
  ⟨inv_service, by decide, by decide, by decide, by decide⟩
/-- DirtyFlagsHaveOneSetterAndOneClearer: a flag that falls by the scheduler, one that falls by CMD_RETIRE, and one that
rises. -/
theorem witness_dirty : Inv sService ∧ (takeTurn sService).1 ≠ .reset ∧ (sService.pcmd.get .pl).dirty = true ∧
    got (step sService) (fun t => (t.pcmd.get .pl).dirty) = some false ∧
    got (step { sService with turns := [.input (.op { op := 0xE, kind := 2, gen := 1 })] }) (fun t => (t.pcmd.get .pl).dirty) =
      some false ∧
    got (step { s0 with turns := [.input (.op { op := 0xC, topic := "solar/ems/7/EMS_EM/turn", payload := [0x6F, 0x6E] })] })
      (fun t => (t.pcmd.get .em).dirty) = some true := ⟨inv_service, by decide, by decide, by decide +kernel, by decide, by decide⟩
theorem witness_first_step : s0.cfg.telem.count ≤ s0.cfg.maxCount := by decide
/-- EveryStepKeepsTheInvariant. -/
theorem witness_invariant_step : Inv sService ∧ (got (step sService) State.sstate).isSome = true :=
  ⟨inv_service, by decide +kernel⟩
/-- WellFormedInstructionsAreNeverRefused. -/
theorem witness_well_formed : Inv sService ∧ sService.cfg.writeAckCount ≤ sService.cfg.maxCount ∧
    (Instr.encWrite 0x0202 1 [1600]).wf sService.cfg = true := ⟨inv_service, by decide, by decide⟩
/-- RecordsDoNotInfluenceTheBlock. -/
theorem witness_same_block : let s := { sTx with turns := [.chanWrite true] }
    sameBlock s { s with wire := [f1], result := .started } ∧ (got (step s) State.xstate).isSome = true := ⟨rfl, by decide⟩

end Sys2Proof.Tests
end

section
/-! The parameters are constant (R8, R62): no effect of an instruction, of the scheduler or of a turn writes `cfg`. -/

namespace Sys2Proof.Machine

/-! ### The exchange FSM's steps -/

@[simp] theorem State.accepted_cfg (s : State) (frame hdr : List Byte) (count : Word) :
    (s.accepted frame hdr count).cfg = s.cfg := rfl

@[simp] theorem sendStep_cfg (ok : Bool) (s : State) : (sendStep ok s).cfg = s.cfg := by
  obtain ⟨-, e⟩ | ⟨-, -, e⟩ | ⟨-, -, -, e⟩ | ⟨-, -, -, e⟩ := sendStep_cases ok s <;> rw [e]
  exact s.raiseTransportFailure_cfg

@[simp] theorem readFailStep_cfg (s : State) : (readFailStep s).cfg = s.cfg := by
  obtain ⟨-, e⟩ | ⟨-, e⟩ := readFailStep_cases s <;> rw [e]
  exact s.raiseTransportFailure_cfg

theorem receiveStep_cfg {raw : List Byte} {s t : State} (h : receiveStep raw s = .next t) : t.cfg = s.cfg := by
  obtain ⟨-, rfl⟩ | ⟨-, ws, -, rfl⟩ | ⟨-, rfl⟩ := receiveStep_cases h <;> rfl

/-! ### The effects -/

theorem ExecEffect.cfg_eq {i : Instr} {s t : State} (e : ExecEffect i s t) : t.cfg = s.cfg := by
  cases e <;> rfl

theorem SchedulerEffect.cfg_eq {s t : State} (e : SchedulerEffect s t) : t.cfg = s.cfg := by
  cases e <;> rfl

/-- Reset is among the turns: it puts every register at its reset value but takes the parameters over (R240). -/
theorem TurnEffect.cfg_eq {t : Turn} {s u : State} (e : TurnEffect t s u) : u.cfg = s.cfg := by
  cases e with
  | exec x i _ _ e => exact e.cfg_eq
  | garbage raw _ e => exact receiveStep_cfg e
  | send ok => exact sendStep_cfg ok s
  | readFail => exact readFailStep_cfg s
  | scheduler _ e => exact e.cfg_eq
  | resume i rest _ _ e => exact e.cfg_eq.trans (s.withWaiting_cfg rest)
  | resumeNone => rfl
  | consume => exact s.consumeFact_cfg
  | cancelIn => exact s.raiseCancel_cfg
  | reset => exact s.pullReset_cfg

/-- Settles O57: a step is a turn's effect on the state without the turn, and neither part writes the parameters. -/
theorem noStepChangesTheParameters : Obligations.NoStepChangesTheParameters := by
  intro s t h
  calc t.cfg = (takeTurn s).2.cfg := (step_effect h).cfg_eq
    _ = s.cfg := takeTurn_cfg s

end Sys2Proof.Machine
end

section
/-! The invariant (R20, R22, R24, R27, R29, R30): every update of the state that an effect is made of keeps it. Each lemma proves
the clauses that speak of the registers the update writes; the other clauses are the old state's. -/

namespace Sys2Proof.Machine

/-! ### Facts the clauses rest on -/

/-- Facts for which there is room fit (R30, R57). -/
theorem out_append_length_le {s : State} {fs : List Fact} {d : Nat} (room : s.hasRoom fs.length = true)
    (hd : s.cfg.fifoDepth = some d) (hout : s.out.length ≤ d) : (s.out ++ fs).length ≤ d := by
  have free : fs.length ≤ d - s.out.length := by simpa [State.hasRoom, hd] using room
  rw [List.length_append]
  omega

theorem validateSwitch_some {c : Config} {payload : List Byte} {v : Word} (h : validateSwitch c payload = some v) :
    v = c.onValue ∨ v = c.offValue := by
  unfold validateSwitch at h
  split at h
  · cases h; exact .inl rfl
  · split at h
    · cases h; exact .inr rfl
    · cases h

theorem validatePowerLimit_some {payload : List Byte} {v : Word} (h : validatePowerLimit payload = some v) :
    v.toNat ≤ Config.plMax := by
  unfold validatePowerLimit at h
  split at h
  · next ok =>
    obtain ⟨-, -, -, hmax⟩ := ok
    cases h
    exact (Nat.mod_le _ _).trans hmax
  · cases h

/-- What CMD_POST accepts is a value its register may hold (R24, R200, R201). -/
theorem commandValueOk_of_validate {c : Config} {k : CmdKind} {payload : List Byte} {v : Word}
    (h : validate c k payload = some v) : commandValueOk c k v = true := by
  cases k with
  | em => simpa [commandValueOk] using validateSwitch_some h
  | bypass => simpa [commandValueOk] using validateSwitch_some h
  | pl => simpa [commandValueOk] using validatePowerLimit_some h

namespace Inv

variable {s : State}

/-- Outside the service states no command is latched (R27). -/
theorem svc_eq_none (hi : Inv s) (hw : s.sstate ≠ .svcWrite) (hc : s.sstate ≠ .svcConfirm) : s.svc = none := by
  rw [← Option.not_isSome_iff_eq_none, hi.service]
  exact not_or.mpr ⟨hw, hc⟩

/-! ### The updates an effect is made of -/

theorem portWrite (hi : Inv s) (c : Word) (r : Result) : Inv { s with crc := c, result := r } := { hi with }

theorem withResult (hi : Inv s) (r : Result) : Inv (s.withResult r) := { hi with }

theorem diagCounter (hi : Inv s) (i : Fin 5) : Inv { s with rr := i } := { hi with }

theorem emitFacts (hi : Inv s) (p : Five (Option Word)) {fs : List Fact} (room : s.hasRoom fs.length = true) :
    Inv { s with pend := p, out := s.out ++ fs } :=
  { hi with room := fun d hd => out_append_length_le room hd (hi.room d hd) }

theorem consumeFact (hi : Inv s) : Inv s.consumeFact :=
  { hi with room := fun d hd => (List.drop_sublist 1 s.out).length_le.trans (hi.room d hd) }

theorem holdOp (hi : Inv s) {i : Instr} (wait : canWait i = true) : Inv (s.holdOp i) :=
  { hi with
    waits := fun j hj => by
      obtain hj | rfl : j ∈ s.waiting ∨ j = i := by simpa using hj
      · exact hi.waits j hj
      · exact wait }

theorem dropWaiting (hi : Inv s) {i : Instr} {rest : List Instr} (first : s.waiting = i :: rest) :
    Inv (s.withWaiting rest) :=
  { hi with waits := fun j hj => hi.waits j (first ▸ List.mem_cons_of_mem i hj) }

/-- An exchange starts in X_TX, or in X_CANCELLED under cancellation (R173). -/
theorem accepted (hi : Inv s) {f h : List Byte} {n : Word} (count : n ≤ s.cfg.maxCount) (header : h.length = 8)
    (frame : f.length ≤ frameBound s.cfg) : Inv (s.accepted f h n) :=
  { hi with
    frame, header, count
    words := fun hx => by cases hc : s.cancel <;> simp [State.accepted, hc] at hx
    cancelled := fun hx => by
      by_contra hc
      simp [State.accepted, show ¬s.cancel = true from hc] at hx }

/-- The exchange FSM goes to a state that is neither of the two the invariant speaks of (R174). -/
theorem exchangeState (hi : Inv s) {x : XState} (hok : x ≠ .ok) (hcan : x ≠ .cancelled) : Inv { s with xstate := x } :=
  { hi with words := fun hx => absurd hx hok, cancelled := fun hx => absurd hx hcan }

theorem exchangeCancelled (hi : Inv s) (hc : s.cancel = true) : Inv { s with xstate := .cancelled } :=
  { hi with words := nofun, cancelled := fun _ => hc }

/-- A valid response has the words that were asked for (R174, R179(b)). -/
theorem receivedWords (hi : Inv s) {ws : List Word} (hl : ws.length = s.xcnt.toNat) :
    Inv { s with xwords := ws, xstate := .ok } :=
  { hi with words := fun _ => hl, cancelled := nofun }

theorem raiseCancel (hi : Inv s) : Inv s.raiseCancel :=
  { hi with failure := fun _ => rfl, cancelled := fun _ => rfl, halted := fun _ => rfl }

theorem raiseTransportFailure (hi : Inv s) : Inv s.raiseTransportFailure :=
  { hi with words := nofun, failure := fun _ => rfl, cancelled := fun _ => rfl, halted := fun _ => rfl }

/-- A register's generation never falls, its value changes only with the generation, and it is dirty only with a validated value
that was posted (R24). -/
theorem setCommand (hi : Inv s) (k : CmdKind) {p : PendingCmd} (hgen : (s.pcmd.get k).gen ≤ p.gen)
    (hvalue : p.gen = (s.pcmd.get k).gen → p.value = (s.pcmd.get k).value)
    (hdirty : p.dirty = true → commandValueOk s.cfg k p.value = true ∧ 1 ≤ p.gen) :
    Inv { s with pcmd := s.pcmd.set k p } :=
  { hi with
    latched := fun v hv => by
      obtain ⟨hle, heq⟩ := hi.latched v hv
      by_cases hk : v.kind = k
      · subst hk
        simp only [CmdRegs.get_set_self]
        refine ⟨hle.trans hgen, fun hg => ?_⟩
        have same : p.gen = (s.pcmd.get v.kind).gen := by omega
        rw [hvalue same, heq (hg.trans same)]
      · simpa only [CmdRegs.get_set_ne _ _ _ _ hk] using ⟨hle, heq⟩
    dirty := fun j hj => by
      by_cases hk : j = k
      · subst hk
        simp only [CmdRegs.get_set_self] at hj ⊢
        exact hdirty hj
      · simp only [CmdRegs.get_set_ne _ _ _ _ hk] at hj ⊢
        exact hi.dirty j hj }

/-- An accepted post (R197). -/
theorem postCommand (hi : Inv s) {k : CmdKind} {v : Word} (valid : commandValueOk s.cfg k v = true) :
    Inv (s.postCommand k v) :=
  hi.setCommand k (Nat.le_succ _) (fun h => absurd h (Nat.succ_ne_self _)) fun _ => ⟨valid, Nat.le_add_left _ _⟩

/-- A retire keeps value and generation and sets no flag (R199). -/
theorem retireCommand (hi : Inv s) (k : CmdKind) (g : Nat) : Inv (s.retireCommand k g) :=
  hi.setCommand k (PendingCmd.retired_gen _ g).ge (fun _ => PendingCmd.retired_value _ g) fun hd => by
    rw [PendingCmd.retired_dirty, Bool.and_eq_true] at hd
    rw [PendingCmd.retired_value, PendingCmd.retired_gen]
    exact hi.dirty k hd.1

/-- The command taken is latched with its register's generation and value (R192). -/
theorem latchCommand (hi : Inv s) {v : Service} (take : firstDirty s.pcmd = some v) :
    Inv { s with svc := some v, sstate := .svcWrite } := by
  obtain ⟨-, hvalue, hgen⟩ := firstDirty_some take
  exact { hi with
    service := ⟨fun _ => .inl rfl, fun _ => rfl⟩
    latched := fun _ hu => Option.some.inj hu ▸ ⟨hgen.le, fun _ => hvalue⟩
    halted := nofun }

/-- From S_SVC_WRITE to S_SVC_CONFIRM the latched command stays (R193). -/
theorem confirmService (hi : Inv s) (at_ : s.sstate = .svcWrite) : Inv { s with sstate := .svcConfirm } :=
  { hi with service := ⟨fun _ => .inr rfl, fun _ => hi.service.mpr (.inl at_)⟩, halted := nofun }

/-- Outside the service states nothing is latched (R27). -/
theorem leaveService (hi : Inv s) {o : Option Service} {x : SState} (ho : o = none) (hw : x ≠ .svcWrite)
    (hc : x ≠ .svcConfirm) (hh : x = .halted → s.cancel = true) : Inv { s with svc := o, sstate := x } := by
  subst ho
  exact { hi with
    service := ⟨nofun, fun h => h.elim (absurd · hw) (absurd · hc)⟩
    latched := nofun
    halted := hh }

end Inv

/-! ### The effects -/

/-- The invariant after reset (R240). Its clauses `frame`, `header` and `count` hold by the values the model chose (log 11). -/
theorem inv_resetWith (c : Config) : Inv (State.resetWith c) where
  frame := Nat.zero_le _
  header := rfl
  count := Nat.zero_le _
  words := nofun
  service := by simp [State.resetWith]
  latched := nofun
  dirty k := by cases k <;> exact nofun
  failure := nofun
  cancelled := nofun
  halted := nofun
  room _ _ := Nat.zero_le _
  waits := nofun

theorem Inv.pullReset {s : State} : Inv s.pullReset := { inv_resetWith s.cfg with }

theorem ExecEffect.inv {i : Instr} {s t : State} (e : ExecEffect i s t) (hi : Inv s) : Inv t := by
  cases e with
  | port c r => exact hi.portWrite c r
  | reassembler p fs r room => exact (hi.emitFacts p room).withResult r
  | hold wait => exact hi.holdOp wait
  | accept f h n _ _ count header frame => exact (hi.withResult .started).accepted count header frame
  | post topic payload k v _ valid => exact (hi.postCommand (commandValueOk_of_validate valid)).withResult _
  | retire k g _ r => exact (hi.retireCommand k g).withResult r
  | unread => exact hi
  | received raw ws _ parse => exact hi.receivedWords (parseResponse_length parse)
  | retry => exact hi.exchangeState nofun nofun

theorem SchedulerEffect.inv {s t : State} (e : SchedulerEffect s t) (hi : Inv s) : Inv t := by
  have idle : Inv s.consumeOutcome := hi.exchangeState nofun nofun
  cases e with
  | none => exact hi
  | halt cancel _ => exact hi.leaveService rfl nofun nofun fun _ => cancel
  | issue f h n _ _ _ count header frame => exact hi.accepted count header frame
  | telemTake fs v room _ _ take => exact (idle.emitFacts pendEmpty room).latchCommand take
  | telemNone fs room at_ _ _ =>
    have unlatched : s.svc = Option.none := hi.svc_eq_none (by simp [at_]) (by simp [at_])
    exact (idle.emitFacts pendEmpty room).leaveService unlatched nofun nofun nofun
  | wrote at_ _ => exact idle.confirmService at_
  | confirmed fs v room _ _ _ =>
    exact ((idle.emitFacts pendEmpty room).retireCommand v.kind v.gen).leaveService rfl nofun nofun nofun
  | confirmedNone fs room _ _ service => exact (idle.emitFacts pendEmpty room).leaveService service nofun nofun nofun
  | diagnosed fs room at_ _ =>
    have unlatched : s.svc = Option.none := hi.svc_eq_none (by simp [at_]) (by simp [at_])
    exact ((idle.emitFacts pendEmpty room).diagCounter _).leaveService unlatched nofun nofun nofun
  | cancelled _ x => exact idle.leaveService rfl nofun nofun fun _ => hi.cancelled x

theorem sendStep_inv {s : State} (ok : Bool) (hi : Inv s) : Inv (sendStep ok s) := by
  obtain ⟨-, e⟩ | ⟨-, hc, e⟩ | ⟨-, -, -, e⟩ | ⟨-, -, -, e⟩ := sendStep_cases ok s <;> rw [e]
  · exact hi
  · exact hi.exchangeCancelled hc
  · exact { hi.exchangeState (x := .rx) nofun nofun with }
  · exact hi.raiseTransportFailure

theorem readFailStep_inv {s : State} (hi : Inv s) : Inv (readFailStep s) := by
  obtain ⟨-, e⟩ | ⟨-, e⟩ := readFailStep_cases s <;> rw [e]
  · exact hi
  · exact hi.raiseTransportFailure

theorem receiveStep_inv {raw : List Byte} {s t : State} (h : receiveStep raw s = .next t) (hi : Inv s) : Inv t := by
  obtain ⟨-, rfl⟩ | ⟨-, ws, parse, rfl⟩ | ⟨-, rfl⟩ := receiveStep_cases h
  · exact hi
  · exact hi.receivedWords (parseResponse_length parse)
  · exact hi.exchangeState nofun nofun

theorem TurnEffect.inv {t : Turn} {s u : State} (e : TurnEffect t s u) (hi : Inv s) : Inv u := by
  cases e with
  | exec x i _ _ e => exact e.inv hi
  | garbage raw _ e => exact receiveStep_inv e hi
  | send ok => exact sendStep_inv ok hi
  | readFail => exact readFailStep_inv hi
  | scheduler _ e => exact e.inv hi
  | resume i rest _ first e => exact e.inv (hi.dropWaiting first)
  | resumeNone => exact hi
  | consume => exact hi.consumeFact
  | cancelIn => exact hi.raiseCancel
  | reset => exact .pullReset

/-- The invariant speaks of no turn. -/
theorem Inv.takeTurn {s : State} (hi : Inv s) : Inv (takeTurn s).2 := by
  unfold Machine.takeTurn
  split <;> exact { hi with }

/-- Settles O56: every update that an effect is made of keeps the invariant, and a step is a turn's effect on the state without
the turn. -/
theorem everyStepKeepsTheInvariant : Obligations.EveryStepKeepsTheInvariant :=
  fun _ _ hi h => (step_effect h).inv hi.takeTurn

end Sys2Proof.Machine
end

section
/-! Cancellation (R28, R29, R222): what an effect does to `cancel` and `fault`. -/

namespace Sys2Proof.Machine

/-- Both flags are as they were. -/
def SameCancellation (s t : State) : Prop := t.cancel = s.cancel ∧ t.fault = s.fault

theorem ExecEffect.sameCancellation {i : Instr} {s t : State} (e : ExecEffect i s t) : SameCancellation s t := by
  cases e <;> exact ⟨rfl, rfl⟩

theorem SchedulerEffect.sameCancellation {s t : State} (e : SchedulerEffect s t) : SameCancellation s t := by
  cases e <;> exact ⟨rfl, rfl⟩

theorem receiveStep_sameCancellation {raw : List Byte} {s t : State} (h : receiveStep raw s = .next t) :
    SameCancellation s t := by
  obtain ⟨-, rfl⟩ | ⟨-, ws, -, rfl⟩ | ⟨-, rfl⟩ := receiveStep_cases h <;> exact ⟨rfl, rfl⟩

theorem sendStep_cancellation (ok : Bool) (s : State) :
    SameCancellation s (sendStep ok s) ∨ ((sendStep ok s).cancel = true ∧ (sendStep ok s).fault = true) := by
  obtain ⟨-, e⟩ | ⟨-, -, e⟩ | ⟨-, -, -, e⟩ | ⟨-, -, -, e⟩ := sendStep_cases ok s <;> rw [e]
  · exact .inl ⟨rfl, rfl⟩
  · exact .inl ⟨rfl, rfl⟩
  · exact .inl ⟨rfl, rfl⟩
  · exact .inr ⟨rfl, rfl⟩

theorem readFailStep_cancellation (s : State) :
    SameCancellation s (readFailStep s) ∨ ((readFailStep s).cancel = true ∧ (readFailStep s).fault = true) := by
  obtain ⟨-, e⟩ | ⟨-, e⟩ := readFailStep_cases s <;> rw [e]
  · exact .inl ⟨rfl, rfl⟩
  · exact .inr ⟨rfl, rfl⟩

/-- What a turn does to the two flags: nothing, the transport failure, the cancellation source, or reset. -/
theorem TurnEffect.cancellation {t : Turn} {s u : State} (e : TurnEffect t s u) :
    SameCancellation s u ∨ (u.cancel = true ∧ u.fault = true) ∨
    (t = .cancelIn ∧ u.cancel = true ∧ u.fault = s.fault) ∨ (t = .reset ∧ u.cancel = false) := by
  cases e with
  | exec x i _ _ e => exact .inl e.sameCancellation
  | garbage raw _ e => exact .inl (receiveStep_sameCancellation e)
  | send ok => exact (sendStep_cancellation ok s).imp_right .inl
  | readFail => exact (readFailStep_cancellation s).imp_right .inl
  | scheduler _ e => exact .inl e.sameCancellation
  | resume i rest _ _ e => exact .inl e.sameCancellation
  | resumeNone => exact .inl ⟨rfl, rfl⟩
  | consume => exact .inl ⟨rfl, rfl⟩
  | cancelIn is => exact .inr (.inr (.inl ⟨is, rfl, rfl⟩))
  | reset is => exact .inr (.inr (.inr ⟨is, rfl⟩))

/-- Settles O34: no turn but reset lowers a flag, and `cancel` rises by the cancellation source or together with `fault`. -/
theorem cancelIsStickyAndHasTwoCauses : Obligations.CancelIsStickyAndHasTwoCauses := by
  refine ⟨fun _ => rfl, fun s t h => ?_⟩
  have flags := (step_effect h).cancellation
  simp only [SameCancellation, takeTurn_cancel, takeTurn_fault] at flags
  obtain ⟨hc, hf⟩ | ⟨hc, hf⟩ | ⟨is, hc, hf⟩ | ⟨is, hc⟩ := flags
  · exact ⟨fun _ => ⟨hc.trans, hf.trans⟩, fun low high => by simp [hc, low] at high⟩
  · exact ⟨fun _ => ⟨fun _ => hc, fun _ => hf⟩, fun _ _ => .inr hf⟩
  · exact ⟨fun _ => ⟨fun _ => hc, hf.trans⟩, fun _ _ => .inl is⟩
  · exact ⟨fun running => absurd is running, fun _ high => by simp [hc] at high⟩

end Sys2Proof.Machine
end

section
/-! The dirty flags (R24, R31): which effects write the command registers, and what a post and a retire do to the flags. -/

namespace Sys2Proof.Machine

/-! ### The flags after a post and after a retire -/

theorem CmdRegs.dirty_of_set_posted {r : CmdRegs} {j k : CmdKind} {v : Word} (h : (r.get k).dirty = true) :
    ((r.set j ((r.get j).posted v)).get k).dirty = true := by
  by_cases hk : k = j
  · subst hk; simp
  · rwa [CmdRegs.get_set_ne _ _ _ _ hk]

theorem CmdRegs.dirty_of_set_retired {r : CmdRegs} {j k : CmdKind} {g : Nat}
    (h : ((r.set j ((r.get j).retired g)).get k).dirty = true) : (r.get k).dirty = true := by
  by_cases hk : k = j
  · subst hk
    rw [CmdRegs.get_set_self, PendingCmd.retired_dirty, Bool.and_eq_true] at h
    exact h.1
  · rwa [CmdRegs.get_set_ne _ _ _ _ hk] at h

/-- A retire lowers no flag but its own kind's (R199). -/
theorem CmdRegs.kind_eq_of_set_retired {r : CmdRegs} {j k : CmdKind} {g : Nat} (before : (r.get k).dirty = true)
    (after : ((r.set j ((r.get j).retired g)).get k).dirty = false) : k = j := by
  by_contra hk
  rw [CmdRegs.get_set_ne _ _ _ _ hk, before] at after
  cases after

/-! ### The writers of the command registers -/

/-- The registers after an accepted post (R197). -/
def PostedIn (k : CmdKind) (v : Word) (s t : State) : Prop := t.pcmd = s.pcmd.set k ((s.pcmd.get k).posted v)

/-- The registers after a retire (R199). -/
def RetiredIn (k : CmdKind) (g : Nat) (s t : State) : Prop := t.pcmd = s.pcmd.set k ((s.pcmd.get k).retired g)

theorem ExecEffect.pcmd_cases {i : Instr} {s t : State} (e : ExecEffect i s t) :
    t.pcmd = s.pcmd ∨ (∃ topic payload k v, i = .cmdPost topic payload ∧ PostedIn k v s t) ∨
    (∃ k g, i = .cmdRetire k g ∧ RetiredIn k g s t) := by
  cases e with
  | post topic payload k v is _ => exact .inr (.inl ⟨topic, payload, k, v, is, rfl⟩)
  | retire k g is r => exact .inr (.inr ⟨k, g, is, rfl⟩)
  | _ => exact .inl rfl

/-- An operation that waits is none of the two that write the registers (R170). -/
theorem ExecEffect.pcmd_eq_of_canWait {i : Instr} {s t : State} (e : ExecEffect i s t) (wait : canWait i = true) :
    t.pcmd = s.pcmd := by
  obtain h | ⟨_, _, _, _, rfl, -⟩ | ⟨_, _, rfl, -⟩ := e.pcmd_cases
  · exact h
  · cases wait
  · cases wait

theorem SchedulerEffect.pcmd_cases {s t : State} (e : SchedulerEffect s t) :
    t.pcmd = s.pcmd ∨ (s.sstate = .svcConfirm ∧ s.xstate = .ok ∧ ∃ k g, RetiredIn k g s t) := by
  cases e with
  | confirmed fs v _ at_ ok _ => exact .inr ⟨at_, ok, v.kind, v.gen, rfl⟩
  | _ => exact .inl rfl

theorem receiveStep_pcmd {raw : List Byte} {s t : State} (h : receiveStep raw s = .next t) : t.pcmd = s.pcmd := by
  obtain ⟨-, rfl⟩ | ⟨-, ws, -, rfl⟩ | ⟨-, rfl⟩ := receiveStep_cases h <;> rfl

@[simp] theorem sendStep_pcmd (ok : Bool) (s : State) : (sendStep ok s).pcmd = s.pcmd := by
  obtain ⟨-, e⟩ | ⟨-, -, e⟩ | ⟨-, -, -, e⟩ | ⟨-, -, -, e⟩ := sendStep_cases ok s <;> rw [e]
  exact s.raiseTransportFailure_pcmd

@[simp] theorem readFailStep_pcmd (s : State) : (readFailStep s).pcmd = s.pcmd := by
  obtain ⟨-, e⟩ | ⟨-, e⟩ := readFailStep_cases s <;> rw [e]
  exact s.raiseTransportFailure_pcmd

/-- Who writes the command registers: CMD_POST, CMD_RETIRE, the complete step of S_SVC_CONFIRM, and reset. -/
theorem TurnEffect.pcmd_cases {t : Turn} {s u : State} (e : TurnEffect t s u) (waits : ∀ i ∈ s.waiting, canWait i = true) :
    u.pcmd = s.pcmd ∨
    (∃ x topic payload k v, t = .input x ∧ decode x = .ok (.cmdPost topic payload) ∧ PostedIn k v s u) ∨
    (∃ x k g, t = .input x ∧ decode x = .ok (.cmdRetire k g) ∧ RetiredIn k g s u) ∨
    (t = .scheduler ∧ s.sstate = .svcConfirm ∧ s.xstate = .ok ∧ ∃ k g, RetiredIn k g s u) ∨ t = .reset := by
  cases e with
  | exec x i is decodes e =>
    obtain h | ⟨topic, payload, k, v, rfl, h⟩ | ⟨k, g, rfl, h⟩ := e.pcmd_cases
    · exact .inl h
    · exact .inr (.inl ⟨x, topic, payload, k, v, is, decodes, h⟩)
    · exact .inr (.inr (.inl ⟨x, k, g, is, decodes, h⟩))
  | garbage raw _ e => exact .inl (receiveStep_pcmd e)
  | send ok => exact .inl (sendStep_pcmd ok s)
  | readFail => exact .inl (readFailStep_pcmd s)
  | scheduler is e =>
    obtain h | ⟨at_, ok, h⟩ := e.pcmd_cases
    · exact .inl h
    · exact .inr (.inr (.inr (.inl ⟨is, at_, ok, h⟩)))
  | resume i rest _ first e => exact .inl (e.pcmd_eq_of_canWait (waits i (by simp [first])))
  | resumeNone => exact .inl rfl
  | consume => exact .inl s.consumeFact_pcmd
  | cancelIn => exact .inl s.raiseCancel_pcmd
  | reset is => exact .inr (.inr (.inr (.inr is)))

/-- Settles O52: a post only sets flags, a retire only clears its own kind's, and no other turn but reset writes the registers. -/
theorem dirtyFlagsHaveOneSetterAndOneClearer : Obligations.DirtyFlagsHaveOneSetterAndOneClearer := by
  intro s t k hi h running
  have writers := (step_effect h).pcmd_cases hi.takeTurn.waits
  simp only [PostedIn, RetiredIn, takeTurn_pcmd, takeTurn_sstate, takeTurn_xstate] at writers
  obtain same | ⟨x, topic, payload, j, v, is, decodes, posted⟩ | ⟨x, j, g, is, decodes, retired⟩ |
    ⟨is, at_, ok, j, g, retired⟩ | is := writers
  · rw [same]
    exact ⟨fun low high => by simp [low] at high, fun high low => by simp [high] at low⟩
  · refine ⟨fun _ _ => ⟨x, topic, payload, is, decodes⟩, fun high low => ?_⟩
    rw [posted, CmdRegs.dirty_of_set_posted high] at low
    cases low
  · rw [retired]
    refine ⟨fun low high => ?_, fun high low => .inl ⟨x, g, is, ?_⟩⟩
    · simp [CmdRegs.dirty_of_set_retired high] at low
    · rw [CmdRegs.kind_eq_of_set_retired high low, decodes]
  · rw [retired]
    refine ⟨fun low high => ?_, fun _ _ => .inr ⟨is, at_, ok⟩⟩
    simp [CmdRegs.dirty_of_set_retired high] at low
  · exact absurd is running

end Sys2Proof.Machine
end

section
/-! The model's records (log 8, log 10) influence nothing: what a step does to the block is a function of the block. A state is
compared with its block, the same state with both records at rest, function by function. -/

namespace Sys2Proof.Machine

/-- The state with both records at rest. -/
def State.block (s : State) : State := { s with result := .none, wire := [] }

@[simp] theorem State.block_xstate (s : State) : s.block.xstate = s.xstate := rfl
@[simp] theorem State.block_xhdr (s : State) : s.block.xhdr = s.xhdr := rfl
@[simp] theorem State.block_xcnt (s : State) : s.block.xcnt = s.xcnt := rfl
@[simp] theorem State.block_pcmd (s : State) : s.block.pcmd = s.pcmd := rfl
@[simp] theorem State.block_sstate (s : State) : s.block.sstate = s.sstate := rfl
@[simp] theorem State.block_rr (s : State) : s.block.rr = s.rr := rfl
@[simp] theorem State.block_svc (s : State) : s.block.svc = s.svc := rfl
@[simp] theorem State.block_cfg (s : State) : s.block.cfg = s.cfg := rfl
@[simp] theorem State.block_waiting (s : State) : s.block.waiting = s.waiting := rfl
@[simp] theorem State.block_turns (s : State) : s.block.turns = s.turns := rfl
@[simp] theorem State.block_draws (s : State) : s.block.draws = s.draws := rfl

/-- States of the same block are those whose blocks are one state. -/
theorem sameBlock_iff {s t : State} : sameBlock s t ↔ s.block = t.block := by
  constructor
  · intro h
    rw [← show { s with result := t.result, wire := t.wire } = t from h]
    rfl
  · exact congrArg fun u : State => { u with result := t.result, wire := t.wire }

/-- The outcome with the next state's records at rest. -/
def blockOf : Host.Outcome State Fault Refusal → Host.Outcome State Fault Refusal
  | .next t => .next t.block
  | .fault f => .fault f
  | .refused r => .refused r

theorem blockOf_eq_next {o : Host.Outcome State Fault Refusal} {u : State} (h : blockOf o = .next u) :
    ∃ t, o = .next t ∧ t.block = u := by
  cases o with
  | next t => exact ⟨t, rfl, Host.Outcome.next.inj h⟩
  | fault f => cases h
  | refused r => cases h

/-- The function reads no record: on a state and on its block it answers the same, up to the records. -/
def ReadsNoRecord (f : State → Host.Outcome State Fault Refusal) : Prop := ∀ s, blockOf (f s) = blockOf (f s.block)

/-- Both sides branch on one condition, each by its own decision of it. -/
theorem view_ite_congr {α β : Type} (view : α → β) {p : Prop} {d d' : Decidable p} {x y x' y' : α}
    (hx : view x = view x') (hy : view y = view y') : view (@ite α p d x y) = view (@ite α p d' x' y') := by
  by_cases hp : p
  · rwa [if_pos hp, if_pos hp]
  · rwa [if_neg hp, if_neg hp]

/-! ### The exchange FSM -/

theorem acceptExchange_readsNoRecord (f h : List Byte) (n : Word) : ReadsNoRecord (acceptExchange f h n) :=
  fun _ => view_ite_congr blockOf rfl rfl

/-- An exchange started on the port puts the result on the lines first (R173). -/
theorem acceptOnPort_readsNoRecord (f h : List Byte) (n : Word) :
    ReadsNoRecord fun s => acceptExchange f h n (s.withResult .started) := fun s =>
  (acceptExchange_readsNoRecord f h n (s.withResult .started)).trans
    (acceptExchange_readsNoRecord f h n (s.block.withResult .started)).symm

theorem receiveStep_readsNoRecord (raw : List Byte) : ReadsNoRecord (receiveStep raw) := by
  refine fun s => view_ite_congr blockOf ?_ rfl
  simp only [State.block_cfg, State.block_xhdr, State.block_xcnt]
  cases decodeResp s.cfg raw s.xhdr s.xcnt with
  | ok r => cases r <;> rfl
  | error e => rfl

theorem sendStep_readsNoRecord (ok : Bool) : ReadsNoRecord fun s => .next (sendStep ok s) :=
  fun _ => view_ite_congr (blockOf ∘ .next)
    (view_ite_congr (blockOf ∘ .next) rfl (view_ite_congr (blockOf ∘ .next) rfl rfl)) rfl

theorem readFailStep_readsNoRecord : ReadsNoRecord fun s => .next (readFailStep s) :=
  fun _ => view_ite_congr (blockOf ∘ .next) rfl rfl

/-! ### The instructions -/

theorem answer_readsNoRecord {α : Type} (r : Except Refusal α) (f : α → Result) : ReadsNoRecord (answer r f) := by
  intro s
  cases r <;> rfl

theorem execRsmWord_readsNoRecord (a w : Word) : ReadsNoRecord (execRsmWord a w) :=
  fun _ => view_ite_congr blockOf rfl rfl

theorem execExchange_readsNoRecord (frame hdr : List Byte) (count : Word) : ReadsNoRecord (execExchange frame hdr count) :=
  fun s => view_ite_congr blockOf (acceptOnPort_readsNoRecord _ _ _ s) rfl

theorem execReqRead_readsNoRecord (dev : Byte) (reg count crc : Word) : ReadsNoRecord (execReqRead dev reg count crc) :=
  fun s => view_ite_congr blockOf (view_ite_congr blockOf (acceptOnPort_readsNoRecord _ _ _ s) rfl) rfl

theorem execReqWrite_readsNoRecord (dev : Byte) (reg count : Word) (data : List Word) (crc : Word) :
    ReadsNoRecord (execReqWrite dev reg count data crc) := fun s =>
  view_ite_congr blockOf
    (view_ite_congr blockOf (view_ite_congr blockOf (acceptOnPort_readsNoRecord _ _ _ s) rfl) rfl) rfl

theorem execCmdPost_readsNoRecord (topic : String) (payload : List Byte) : ReadsNoRecord (execCmdPost topic payload) := by
  intro s
  simp only [execCmdPost, State.block_cfg]
  cases route s.cfg topic with
  | none => rfl
  | some k => cases hv : validate s.cfg k payload <;> simp only [hv] <;> rfl

theorem exec_readsNoRecord (i : Instr) : ReadsNoRecord (exec i) := by
  intro s
  cases i with
  | encRead reg count => exact answer_readsNoRecord (readFrame s.cfg reg count) .frame s
  | encWrite reg count data => exact answer_readsNoRecord (writeFrame s.cfg reg count data) .frame s
  | decResp raw hdr count => exact answer_readsNoRecord (decodeResp s.cfg raw hdr count) .decoded s
  | rsmWord a w => exact execRsmWord_readsNoRecord a w s
  | exchange frame hdr count => exact execExchange_readsNoRecord frame hdr count s
  | cmdPost topic payload => exact execCmdPost_readsNoRecord topic payload s
  | reqRead dev reg count crc => exact execReqRead_readsNoRecord dev reg count crc s
  | reqWrite dev reg count data crc => exact execReqWrite_readsNoRecord dev reg count data crc s
  | rspRead dev reg count data crc => exact receiveStep_readsNoRecord _ s
  | rspWrite dev reg count data crc => exact receiveStep_readsNoRecord _ s
  | _ => rfl

/-! ### The scheduler -/

theorem issueRead_readsNoRecord (r : Range) : ReadsNoRecord (issueRead r) := by
  intro s
  simp only [issueRead, State.block_cfg]
  cases readFrame s.cfg r.start r.count with
  | ok f => exact acceptExchange_readsNoRecord _ _ _ s
  | error e => rfl

theorem issueWrite_readsNoRecord (v : Service) : ReadsNoRecord (issueWrite v) := by
  intro s
  simp only [issueWrite, State.block_cfg]
  cases writeFrame s.cfg (cmdReg s.cfg v.kind) 1 [v.value] with
  | ok f => exact acceptExchange_readsNoRecord _ _ _ s
  | error e => rfl

theorem issueStep_readsNoRecord : ReadsNoRecord issueStep := by
  refine fun s => view_ite_congr blockOf rfl ?_
  simp only [State.block_sstate, State.block_svc, State.block_cfg, State.block_rr]
  cases s.sstate with
  | telem => exact issueRead_readsNoRecord _ s
  | svcWrite =>
    cases s.svc with
    | none => rfl
    | some v => exact issueWrite_readsNoRecord v s
  | svcConfirm => exact issueRead_readsNoRecord _ s
  | diag => exact issueRead_readsNoRecord _ s
  | halted => rfl

/-- A processing step reads no record when what follows it reads none (R190). -/
theorem processStep_readsNoRecord (reg : Word) {after : State → State} (h : ReadsNoRecord fun s => .next (after s)) :
    ReadsNoRecord fun s => .next (processStep reg after s) := fun s =>
  view_ite_congr (blockOf ∘ .next)
    ((h (s.consumeOutcome.processResp reg s.xwords)).trans (h (s.block.consumeOutcome.processResp reg s.xwords)).symm) rfl

theorem afterTelem_readsNoRecord : ReadsNoRecord fun s => .next (afterTelem s) := by
  intro s
  simp only [afterTelem, State.block_pcmd]
  cases firstDirty s.pcmd <;> rfl

theorem afterConfirm_readsNoRecord : ReadsNoRecord fun s => .next (afterConfirm s) := by
  intro s
  simp only [afterConfirm, State.block_svc]
  cases s.svc <;> rfl

theorem completeOk_readsNoRecord : ReadsNoRecord fun s => .next (completeOk s) := by
  intro s
  simp only [completeOk, State.block_sstate, State.block_cfg, State.block_rr]
  cases s.sstate with
  | telem => exact processStep_readsNoRecord _ afterTelem_readsNoRecord s
  | svcWrite => rfl
  | svcConfirm => exact processStep_readsNoRecord _ afterConfirm_readsNoRecord s
  | diag => exact processStep_readsNoRecord _ (fun _ => rfl) s
  | halted => rfl

theorem schedulerStep_readsNoRecord : ReadsNoRecord schedulerStep := by
  refine fun s => view_ite_congr blockOf rfl ?_
  simp only [State.block_xstate]
  cases s.xstate with
  | idle => exact issueStep_readsNoRecord s
  | tx => rfl
  | rx => rfl
  | ok => exact completeOk_readsNoRecord s
  | cancelled => rfl

/-! ### A turn and a step -/

theorem inputStep_readsNoRecord (x : Input) : ReadsNoRecord (inputStep x) := by
  intro s
  simp only [inputStep]
  cases decode x with
  | ok i => exact exec_readsNoRecord i s
  | error e =>
    cases x with
    | response raw => exact receiveStep_readsNoRecord raw s
    | op w => rfl
    | request bs => rfl

theorem resumeStep_readsNoRecord : ReadsNoRecord resumeStep := by
  intro s
  simp only [resumeStep, State.block_waiting]
  cases s.waiting with
  | nil => rfl
  | cons i rest => exact (exec_readsNoRecord i _).trans (exec_readsNoRecord i (s.block.withWaiting rest)).symm

theorem turnStep_readsNoRecord (t : Turn) : ReadsNoRecord (turnStep t) := by
  intro s
  cases t with
  | input x => exact inputStep_readsNoRecord x s
  | chanWrite ok => exact sendStep_readsNoRecord ok s
  | readFail => exact readFailStep_readsNoRecord s
  | scheduler => exact schedulerStep_readsNoRecord s
  | resume => exact resumeStep_readsNoRecord s
  | consume => rfl
  | cancelIn => rfl
  | reset => rfl

/-- The next turn is no record's choice. -/
theorem takeTurn_block (s : State) : takeTurn s.block = ((takeTurn s).1, (takeTurn s).2.block) := by
  simp only [takeTurn, State.block_turns, State.block_draws]
  cases s.turns <;> rfl

theorem step_readsNoRecord : ReadsNoRecord step := by
  intro s
  simp only [step, takeTurn_block]
  exact turnStep_readsNoRecord _ _

/-- Settles O60: a step of either state is, up to the records, the step of their common block. -/
theorem recordsDoNotInfluenceTheBlock : Obligations.RecordsDoNotInfluenceTheBlock := by
  intro s s' t same h
  have common : blockOf (step s') = .next t.block :=
    calc blockOf (step s') = blockOf (step s'.block) := step_readsNoRecord s'
      _ = blockOf (step s.block) := by rw [sameBlock_iff.mp same]
      _ = blockOf (step s) := (step_readsNoRecord s).symm
      _ = .next t.block := by rw [h]; rfl
  obtain ⟨t', h', e⟩ := blockOf_eq_next common
  exact ⟨t', h', sameBlock_iff.mpr e.symm⟩

end Sys2Proof.Machine
end

section
/-! The output queue (R30, R57): every effect but the consumer's turn and reset appends facts for which there was room. -/

namespace Sys2Proof.Machine

/-- Facts, possibly none, are appended to the output, and there was room for them (R57). -/
def AppendsWithRoom (s t : State) : Prop := ∃ fs, t.out = s.out ++ fs ∧ s.hasRoom fs.length = true

/-- For no fact there is always room. -/
@[simp] theorem State.hasRoom_zero (s : State) : s.hasRoom 0 = true := by
  unfold State.hasRoom
  split
  · rfl
  · exact decide_eq_true (Nat.zero_le _)

theorem AppendsWithRoom.of_out_eq {s t : State} (h : t.out = s.out) : AppendsWithRoom s t :=
  ⟨[], h.trans (List.append_nil _).symm, s.hasRoom_zero⟩

theorem ExecEffect.appendsWithRoom {i : Instr} {s t : State} (e : ExecEffect i s t) : AppendsWithRoom s t := by
  cases e with
  | reassembler p fs r room => exact ⟨fs, rfl, room⟩
  | _ => exact .of_out_eq rfl

theorem SchedulerEffect.appendsWithRoom {s t : State} (e : SchedulerEffect s t) : AppendsWithRoom s t := by
  cases e with
  | telemTake fs v room => exact ⟨fs, rfl, room⟩
  | telemNone fs room => exact ⟨fs, rfl, room⟩
  | confirmed fs v room => exact ⟨fs, rfl, room⟩
  | confirmedNone fs room => exact ⟨fs, rfl, room⟩
  | diagnosed fs room => exact ⟨fs, rfl, room⟩
  | _ => exact .of_out_eq rfl

theorem receiveStep_out {raw : List Byte} {s t : State} (h : receiveStep raw s = .next t) : t.out = s.out := by
  obtain ⟨-, rfl⟩ | ⟨-, ws, -, rfl⟩ | ⟨-, rfl⟩ := receiveStep_cases h <;> rfl

@[simp] theorem sendStep_out (ok : Bool) (s : State) : (sendStep ok s).out = s.out := by
  obtain ⟨-, e⟩ | ⟨-, -, e⟩ | ⟨-, -, -, e⟩ | ⟨-, -, -, e⟩ := sendStep_cases ok s <;> rw [e]
  exact s.raiseTransportFailure_out

@[simp] theorem readFailStep_out (s : State) : (readFailStep s).out = s.out := by
  obtain ⟨-, e⟩ | ⟨-, e⟩ := readFailStep_cases s <;> rw [e]
  exact s.raiseTransportFailure_out

/-- The three things a turn can do to the output. -/
theorem TurnEffect.out_cases {t : Turn} {s u : State} (e : TurnEffect t s u) :
    AppendsWithRoom s u ∨ (t = .consume ∧ u.out = s.out.tail) ∨ (t = .reset ∧ u.out = []) := by
  cases e with
  | exec x i _ _ e => exact .inl e.appendsWithRoom
  | garbage raw _ e => exact .inl (.of_out_eq (receiveStep_out e))
  | send ok => exact .inl (.of_out_eq (sendStep_out ok s))
  | readFail => exact .inl (.of_out_eq (readFailStep_out s))
  | scheduler _ e => exact .inl e.appendsWithRoom
  | resume i rest _ _ e => exact .inl e.appendsWithRoom
  | resumeNone => exact .inl (.of_out_eq rfl)
  | consume is => exact .inr (.inl ⟨is, List.drop_one⟩)
  | cancelIn => exact .inl (.of_out_eq s.raiseCancel_out)
  | reset is => exact .inr (.inr ⟨is, s.pullReset_out⟩)

/-- Settles O58: the consumer drops the head of `out`; any step is a turn's effect on the state without the turn, whose output
and room are the old ones. -/
theorem outputIsAQueue : Obligations.OutputIsAQueue := by
  refine ⟨fun s => ?_, fun s t h => ?_⟩
  · simp only [turnStep, State.consumeFact, List.drop_one]
  · simpa only [AppendsWithRoom, takeTurn_out, takeTurn_hasRoom] using (step_effect h).out_cases

end Sys2Proof.Machine
end

section
/-! The operation port (R57, R59, R77): an input that decodes is executed, and RSM_WORD holds while the output is full. -/

namespace Sys2Proof.Machine

theorem inputStep_of_decode {x : Input} {i : Instr} (decodes : decode x = .ok i) (s : State) :
    inputStep x s = exec i s := by
  simp only [inputStep, decodes]

/-- Settles O6: the turn that is taken presents `x`, and the input step of a decoded input is `exec`. -/
theorem stepRunsTheDecodedInstruction : Obligations.StepRunsTheDecodedInstruction := by
  intro s rest x i taken decodes
  calc step s = inputStep x rest := by simp only [step, taken, turnStep]
    _ = exec i rest := inputStep_of_decode decodes rest

/-- A combined pair and a word of no pair each give one fact (R152). -/
theorem reassemble_facts_length {c : Config} {pend : Five (Option Word)} {a w : Word}
    (emits : (reassemble c pend a w).outcome = .combined ∨ (reassemble c pend a w).outcome = .passed) :
    (reassemble c pend a w).facts.length = 1 := by
  cases low : pairSlot c a with
  | some i => simp [reassemble, low] at emits
  | none =>
    cases high : highSlot c a with
    | none => simp [reassemble, low, high]
    | some i =>
      cases held : pend.get i with
      | some l => simp [reassemble, low, high, held]
      | none => simp [reassemble, low, high, held] at emits

/-- Without room for its facts RSM_WORD holds (R57). -/
theorem execRsmWord_of_full {a w : Word} {s : State}
    (full : s.hasRoom (reassemble s.cfg s.pend a w).facts.length = false) :
    execRsmWord a w s = .next (s.holdOp (.rsmWord a w)) := by
  simp [execRsmWord, full]

/-- Settles O22: the word would emit one fact, and there is no room for one. -/
theorem rsmWordWaitsWhileTheOutputIsFull : Obligations.RsmWordWaitsWhileTheOutputIsFull := by
  intro a w s full emits
  exact execRsmWord_of_full (by rwa [reassemble_facts_length emits])

end Sys2Proof.Machine
end

section
/-! The encoding (R70 to R80): decoder and encoder are inverse to each other on instructions and on frames, the codes are those
of the tables, and the reserved codes are refused. -/

namespace Sys2Proof

@[simp] theorem decodeKind_encodeKind (k : CmdKind) : decodeKind (encodeKind k) = some k := by cases k <;> rfl

theorem fcWrite_ne_fcRead : Config.fcWrite ≠ Config.fcRead := by decide

/-- The read request frame decodes to its fields (R71). -/
theorem decodeRequest_read (dev : Byte) (reg count crc : Word) :
    decodeRequest (frameBytes dev Config.fcRead reg count [] crc) = .ok (.reqRead dev reg count crc) := by
  simp [decodeRequest]

/-- The write request frame decodes to its fields (R72). -/
theorem decodeRequest_write (dev : Byte) (reg count : Word) (data : List Word) (crc : Word) :
    decodeRequest (frameBytes dev Config.fcWrite reg count data crc) = .ok (.reqWrite dev reg count data crc) := by
  simp [decodeRequest, fcWrite_ne_fcRead]

/-- The read response frame decodes to its fields (R73). -/
theorem decodeResponse_read (dev : Byte) (reg count : Word) (data : List Word) (crc : Word) :
    decodeResponse (frameBytes dev Config.fcRead reg count data crc) = .ok (.rspRead dev reg count data crc) := by
  simp [decodeResponse]

/-- The write response frame decodes to its fields (R74). -/
theorem decodeResponse_write (dev : Byte) (reg count : Word) (data : List Word) (crc : Word) :
    decodeResponse (frameBytes dev Config.fcWrite reg count data crc) = .ok (.rspWrite dev reg count data crc) := by
  simp [decodeResponse, fcWrite_ne_fcRead]

/-- Settles O1: an operation's code selects the arm that reads the lines its encoding has set, and a frame's fields are read
back from its bytes (`splitFrame_frameBytes`). -/
theorem decodeOfEncodeIsTheInstruction : Obligations.DecodeOfEncodeIsTheInstruction := by
  intro i
  cases i with
  | crcInit => rfl
  | crcByte b => rfl
  | encRead reg count => rfl
  | encWrite reg count data => rfl
  | decResp raw hdr count => rfl
  | interp a w => rfl
  | topic a => rfl
  | rsmBegin => rfl
  | rsmWord a w => rfl
  | rsmEnd => rfl
  | exchange frame hdr count => rfl
  | cmdPost topic payload => rfl
  | cmdTake => rfl
  | cmdRetire kind gen => simp [encode, decode, decodeOp]
  | reqRead dev reg count crc => exact decodeRequest_read dev reg count crc
  | reqWrite dev reg count data crc => exact decodeRequest_write dev reg count data crc
  | rspRead dev reg count data crc => exact decodeResponse_read dev reg count data crc
  | rspWrite dev reg count data crc => exact decodeResponse_write dev reg count data crc

/-- Request bytes that decode are the bytes of the fields they decode to (R71, R72). -/
theorem encode_of_decodeRequest {bs : List Byte} {i : Instr} (decodes : decodeRequest bs = .ok i) :
    encode i = .request bs := by
  cases fields : splitFrame bs with
  | none => simp [decodeRequest, fields] at decodes
  | some f =>
    have bytes := splitFrame_some fields
    simp only [decodeRequest, fields] at decodes
    split at decodes
    · next read =>
      split at decodes
      · next empty => cases decodes; rw [bytes, read, empty]; rfl
      · cases decodes
    · split at decodes
      · next write => cases decodes; rw [bytes, write]; rfl
      · cases decodes

/-- Response bytes that decode are the bytes of the fields they decode to (R73, R74). -/
theorem encode_of_decodeResponse {bs : List Byte} {i : Instr} (decodes : decodeResponse bs = .ok i) :
    encode i = .response bs := by
  cases fields : splitFrame bs with
  | none => simp [decodeResponse, fields] at decodes
  | some f =>
    have bytes := splitFrame_some fields
    simp only [decodeResponse, fields] at decodes
    split at decodes
    · next read => cases decodes; rw [bytes, read]; rfl
    · split at decodes
      · next write => cases decodes; rw [bytes, write]; rfl
      · cases decodes

/-- Settles O2: the shape of a frame fixes every byte (`splitFrame_some`), in both directions of the channel. -/
theorem encodeOfDecodedFrameIsTheFrame : Obligations.EncodeOfDecodedFrameIsTheFrame :=
  fun _ _ => ⟨encode_of_decodeRequest, encode_of_decodeResponse⟩

/-- Settles O3: the decoder is run on each of the words. -/
theorem writtenOutWordsDecode : Obligations.WrittenOutWordsDecode := by
  unfold Obligations.WrittenOutWordsDecode
  decide

namespace Machine

/-- A port word that does not decode is refused with the decoder's reason (R78, R80). -/
theorem inputStep_op_of_error {p : PortWord} {e : DecodeError} (fails : decodeOp p = .error e) (s : State) :
    inputStep (.op p) s = .refused (refusalOf e) := by
  simp only [inputStep, decode, fails]

/-- Op codes `0x0` and `0xF` select no operation (R78). -/
theorem decodeOp_reservedOp {p : PortWord} (reserved : p.op = 0x0 ∨ p.op = 0xF) : decodeOp p = .error .reservedOp := by
  obtain code | code := reserved <;> simp [decodeOp, code]

/-- CMD_RETIRE with command kind 3 is no operation (R79, R80). -/
theorem decodeOp_reservedKind {p : PortWord} (retire : p.op = 0xE) (kind : p.kind = 3) :
    decodeOp p = .error .reservedKind := by
  simp [decodeOp, retire, decodeKind, kind]

/-- Settles O4: the decoder reads no operation from either code, and the input step refuses. -/
theorem reservedOpCodesAreRefused : Obligations.ReservedOpCodesAreRefused :=
  fun s _ reserved => inputStep_op_of_error (decodeOp_reservedOp reserved) s

theorem xstateCode_le (x : XState) : (xstateCode x).toNat ≤ 4 := by cases x <;> decide

theorem sstateCode_le (x : SState) : (sstateCode x).toNat ≤ 4 := by cases x <;> decide

/-- Settles O5: the codes by evaluation, the bounds by the cases of the state, and kind 3 by the decoder's refusal. -/
theorem enumeratedCodesAreTheTables : Obligations.EnumeratedCodesAreTheTables :=
  ⟨rfl, fun _ => rfl, rfl, rfl, rfl, rfl, xstateCode_le, sstateCode_le,
    fun s _ retire kind => inputStep_op_of_error (decodeOp_reservedKind retire kind) s⟩

end Machine
end Sys2Proof
end

section
/-! Completion (R80, R170): under the invariant a well-formed instruction always has a next state. -/

namespace Sys2Proof.Machine

/-- An effect leaves the waiting list alone, unless the operation holds. -/
theorem ExecEffect.waiting_cases {i : Instr} {s t : State} (e : ExecEffect i s t) :
    t.waiting = s.waiting ∨ (canWait i = true ∧ t.waiting = s.waiting ++ [i]) := by
  cases e with
  | hold wait => exact .inr ⟨wait, rfl⟩
  | _ => exact .inl rfl

theorem answer_completes {α : Type} {r : Except Refusal α} {x : α} {f : α → Result} {s : State} (ok : r = .ok x) :
    ∃ t, answer r f s = .next t :=
  ⟨s.withResult (f x), by rw [ok]; rfl⟩

theorem acceptExchange_completes {frame hdr : List Byte} {count : Word} {s : State} (hc : count ≤ s.cfg.maxCount)
    (hh : hdr.length = 8) : ∃ t, acceptExchange frame hdr count s = .next t :=
  ⟨_, acceptExchange_next_iff.mpr ⟨⟨hc, hh⟩, rfl⟩⟩

/-- With the latched operands in their types every answer of the channel is judged (R174). -/
theorem receiveStep_completes (raw : List Byte) {s : State} (hc : s.xcnt ≤ s.cfg.maxCount) (hh : s.xhdr.length = 8) :
    ∃ t, receiveStep raw s = .next t := by
  by_cases rx : s.xstate = .rx
  · have judged := decodeResp_of_operands (raw := raw) hc hh
    cases verdict : parseResponse raw s.xhdr s.xcnt with
    | ok ws => exact ⟨_, receiveStep_ok rx (judged.trans (by rw [verdict]))⟩
    | _ => exact ⟨_, receiveStep_retry rx judged (by simp [verdict])⟩
  · exact ⟨s, if_neg rx⟩

/-- An operation that holds while the channel is busy has to complete only when it is free (R170). -/
theorem completes_of_idle {s u : State} {o : Host.Outcome State Fault Refusal}
    (free : s.xstate = .idle → ∃ t, o = .next t) :
    ∃ t, (if s.xstate = .idle then o else .next u) = .next t := by
  split
  · next idle => exact free idle
  · exact ⟨u, rfl⟩

theorem execRsmWord_completes (a w : Word) (s : State) : ∃ t, execRsmWord a w s = .next t := by
  cases room : s.hasRoom (reassemble s.cfg s.pend a w).facts.length with
  | true => exact ⟨_, if_pos room⟩
  | false => exact ⟨_, execRsmWord_of_full room⟩

theorem execCmdPost_completes (topic : String) (payload : List Byte) (s : State) :
    ∃ t, execCmdPost topic payload s = .next t := by
  unfold execCmdPost
  split
  · exact ⟨_, rfl⟩
  · split <;> exact ⟨_, rfl⟩

/-- Under the invariant every well-formed instruction has a next state (R80). -/
theorem exec_completes_of_wf {i : Instr} {s : State} (hi : Inv s) (ack : s.cfg.writeAckCount ≤ s.cfg.maxCount)
    (wf : i.wf s.cfg = true) : ∃ t, exec i s = .next t := by
  cases i with
  | crcInit => exact ⟨_, rfl⟩
  | crcByte b => exact ⟨_, rfl⟩
  | encRead reg count =>
    have hc : count ≤ s.cfg.maxCount := by simpa [Instr.wf] using wf
    exact answer_completes (readFrame_ok_iff.mpr ⟨hc, rfl⟩)
  | encWrite reg count data =>
    obtain ⟨hc, hl⟩ : count ≤ s.cfg.maxCount ∧ data.length = count.toNat := by simpa [Instr.wf] using wf
    exact answer_completes (writeFrame_ok_iff.mpr ⟨hc, hl, rfl⟩)
  | decResp raw hdr count =>
    obtain ⟨hc, hh⟩ : count ≤ s.cfg.maxCount ∧ hdr.length = 8 := by simpa [Instr.wf] using wf
    exact answer_completes (decodeResp_of_operands hc hh)
  | interp a w => exact ⟨_, rfl⟩
  | topic a => exact ⟨_, rfl⟩
  | rsmBegin => exact ⟨_, rfl⟩
  | rsmWord a w => exact execRsmWord_completes a w s
  | rsmEnd => exact ⟨_, rfl⟩
  | exchange frame hdr count =>
    obtain ⟨hc, hh⟩ : count ≤ s.cfg.maxCount ∧ hdr.length = 8 := by simpa [Instr.wf] using wf
    exact completes_of_idle fun _ => acceptExchange_completes hc hh
  | cmdPost topic payload => exact execCmdPost_completes topic payload s
  | cmdTake => exact ⟨_, rfl⟩
  | cmdRetire kind gen => exact ⟨_, rfl⟩
  | reqRead dev reg count crc =>
    simp only [Instr.wf, Bool.and_eq_true, decide_eq_true_eq] at wf
    obtain ⟨⟨-, hc⟩, -⟩ := wf
    refine completes_of_idle fun _ => ?_
    rw [if_pos ((countOk_iff _ _).mpr hc)]
    exact acceptExchange_completes hc rfl
  | reqWrite dev reg count data crc =>
    simp only [Instr.wf, Bool.and_eq_true, decide_eq_true_eq] at wf
    obtain ⟨⟨⟨-, hc⟩, hl⟩, -⟩ := wf
    refine completes_of_idle fun _ => ?_
    rw [if_pos ((countOk_iff _ _).mpr hc), if_pos hl]
    exact acceptExchange_completes ack rfl
  | rspRead dev reg count data crc => exact receiveStep_completes _ hi.count hi.header
  | rspWrite dev reg count data crc => exact receiveStep_completes _ hi.count hi.header

/-- Settles O59: the instruction has a next state, and an effect changes the waiting list only by holding the operation. -/
theorem wellFormedInstructionsAreNeverRefused : Obligations.WellFormedInstructionsAreNeverRefused := by
  intro i s hi ack wf
  obtain ⟨t, next⟩ := exec_completes_of_wf hi ack wf
  exact ⟨t, next, (exec_effect next).waiting_cases⟩

end Sys2Proof.Machine
end

section
/-! The CRC-16 generator (R100 to R104): what its two operations do, the sequence over a byte string, and the residue over a
string with its trailer. -/

namespace Sys2Proof

/-! ### The step over a trailer -/

/-- No round moves an accumulator away from zero. -/
theorem crcRounds_zero_right (n : Nat) : crcRounds n 0 = 0 := by
  rw [crcRounds_shift n 0 (by simp)]
  simp

/-- The step over the accumulator's own low byte clears that byte, so that its eight rounds are a shift. -/
theorem crcStep_lo (c : Word) : crcStep c (lo c) = (hi c).setWidth 16 := by
  have low_clear : ∀ i, i < 8 → (c ^^^ (lo c).setWidth 16).getLsbD i = false := by
    intro i h8
    simp [lo, h8, show i < 16 by omega]
  rw [crcStep, crcRounds_shift 8 _ low_clear]
  apply BitVec.eq_of_getLsbD_eq
  intro i h16
  by_cases h8 : i < 8
  · simp [lo, hi, h8, h16]
  · have beyond : c.getLsbD (8 + i) = false := BitVec.getLsbD_of_ge c _ (by omega)
    simp [lo, hi, h8, beyond]

theorem crcStep_self (b : Byte) : crcStep (b.setWidth 16) b = 0 := by
  rw [crcStep, BitVec.xor_self]
  exact crcRounds_zero_right 8

/-- The two trailer bytes take the accumulator they are the bytes of to zero. -/
theorem crcFold_le16 (c : Word) : (le16 c).foldl crcStep c = 0 := by
  simp only [le16, List.foldl_cons, List.foldl_nil, crcStep_lo, crcStep_self]

/-- R104: the residue. -/
theorem crc16_withTrailer (p : List Byte) : crc16 (Machine.withTrailer p) = 0 := by
  rw [Machine.withTrailer, crc16_append, crcFold_le16]

/-- Settles O10: the step over the low trailer byte leaves the high one, the step over that leaves zero; and the check of R103
accepts what the codec appends. -/
theorem crcOverTrailerIsZero : Obligations.CrcOverTrailerIsZero := by
  intro p
  have accepted := of_decide_eq_true (Machine.trailerOk_withTrailer p)
  exact ⟨crc16_withTrailer p, (BitVec.or_comm _ _).trans accepted⟩

namespace Machine

/-! ### The operations -/

theorem exec_crcInit (s : State) : exec .crcInit s = .next { s with crc := 0xFFFF, result := .none } := rfl

theorem exec_crcByte (b : Byte) (s : State) :
    exec (.crcByte b) s = .next { s with crc := crcStep s.crc b, result := .crc (crcStep s.crc b) } := rfl

/-- Settles O7: R100 is the operation's definition. -/
theorem crcInitSetsTheSeed : Obligations.CrcInitSetsTheSeed := exec_crcInit

/-- Settles O8: the eight rounds written out are the model's `crcStep`. -/
theorem crcByteIsEightReflectedRounds : Obligations.CrcByteIsEightReflectedRounds := exec_crcByte

/-! ### The byte-serial sequence -/

/-- An operation that completes hands its next state to the operations after it. -/
theorem execAll_cons_of_next {i : Instr} {s t : State} (next : exec i s = .next t) (is : List Instr) :
    execAll (i :: is) s = execAll is t := by
  rw [execAll, next]

/-- One CRC_BYTE per byte folds the byte step over the string and touches only `crc` and the result lines. -/
theorem execAll_crcBytes (bs : List Byte) (s : State) :
    ∃ r, execAll (bs.map .crcByte) s = .next { s with crc := bs.foldl crcStep s.crc, result := r } := by
  induction bs generalizing s with
  | nil => exact ⟨s.result, rfl⟩
  | cons b bs ih =>
    obtain ⟨r, rest⟩ := ih { s with crc := crcStep s.crc b, result := .crc (crcStep s.crc b) }
    exact ⟨r, (execAll_cons_of_next (exec_crcByte b s) _).trans rest⟩

/-- Settles O9: CRC_INIT leaves the seed, from which the CRC_BYTEs fold the byte step. -/
theorem byteSerialCrcAgreesWithCrc16 : Obligations.ByteSerialCrcAgreesWithCrc16 := by
  refine ⟨crc16_nil, fun bs s => ?_⟩
  obtain ⟨r, run⟩ := execAll_crcBytes bs { s with crc := 0xFFFF, result := .none }
  exact ⟨_, (execAll_cons_of_next (exec_crcInit s) _).trans run, rfl, rfl⟩

end Machine
end Sys2Proof
end

section
/-! The frame codec (R110 to R117): what ENC_READ, ENC_WRITE and DEC_RESP answer, the round trip of a response, and the detection
of one changed byte. -/

namespace Sys2Proof

/-! ### One changed byte -/

/-- Overwriting an element with another value changes the list. -/
theorem set_ne_self {r : List Byte} {j : Nat} {b : Byte} (inside : j < r.length) (changed : b ≠ r.getD j 0) :
    r.set j b ≠ r := by
  intro same
  have here : (r.set j b).getD j 0 = b := by simp [inside]
  exact changed (here.symm.trans (by rw [same]))

/-- R105: another byte takes the accumulator before it to another value, and the bytes after it keep the two apart. -/
theorem crc16_set_ne {r : List Byte} {j : Nat} {b : Byte} (inside : j < r.length) (changed : b ≠ r.getD j 0) :
    crc16 (r.set j b) ≠ crc16 r := by
  intro same
  have parts : r = r.take j ++ r.getD j 0 :: r.drop (j + 1) := by simp [inside]
  rw [List.set_eq_take_append_cons_drop, if_pos inside, crc16_append] at same
  conv at same => rhs; rw [parts, crc16_append]
  exact changed (crcStep_injective_right _ (crcFold_injective _ same))

namespace Machine

/-- A string that ends in its own CRC leaves no residue (R104). -/
theorem crc16_eq_zero_of_trailerOk {r : List Byte} (two : 2 ≤ r.length) (passes : trailerOk r = true) : crc16 r = 0 := by
  obtain ⟨l, h, last⟩ : ∃ l h, r.drop (r.length - 2) = [l, h] := List.length_eq_two.mp (by simp; omega)
  obtain ⟨p, rfl⟩ : ∃ p, r = p ++ [l, h] := ⟨_, by rw [← last, List.take_append_drop]⟩
  have crc : joinBytes h l = crc16 p := of_decide_eq_true ((trailerOk_append p l h).symm.trans passes)
  have trailer : [l, h] = le16 (crc16 p) := by simp [le16, ← crc]
  rw [trailer]
  exact crc16_withTrailer p

/-- A frame with one changed byte fails the trailer test, wherever the byte stands: the two residues differ. -/
theorem trailerOk_set {r : List Byte} {j : Nat} {b : Byte} (passes : trailerOk r = true) (two : 2 ≤ r.length)
    (inside : j < r.length) (changed : b ≠ r.getD j 0) : trailerOk (r.set j b) = false := by
  refine Bool.eq_false_iff.mpr fun accepted => crc16_set_ne inside changed ?_
  calc crc16 (r.set j b) = 0 := crc16_eq_zero_of_trailerOk (by rwa [List.length_set]) accepted
    _ = crc16 r := (crc16_eq_zero_of_trailerOk two passes).symm

/-! ### The operand checks -/

theorem countOk_eq_false_iff {c : Config} {n : Word} : countOk c n = false ↔ n.toNat > c.maxCount.toNat := by
  rw [← Bool.not_eq_true, countOk_iff, BitVec.not_le]
  exact Iff.rfl

theorem respOperandsOk_eq_false_iff {c : Config} {h : List Byte} {n : Word} :
    respOperandsOk c h n = false ↔ n.toNat > c.maxCount.toNat ∨ h.length ≠ 8 := by
  rw [← Bool.not_eq_true, respOperandsOk_iff, not_and_or, BitVec.not_le]
  exact Iff.rfl

/-! ### The three operations -/

theorem answer_of_ok {α : Type} {r : Except Refusal α} {x : α} {f : α → Result} {s : State} (ok : r = .ok x) :
    answer r f s = .next (s.withResult (f x)) := by
  rw [ok]; rfl

theorem answer_of_error {α : Type} {r : Except Refusal α} {e : Refusal} {f : α → Result} {s : State} (err : r = .error e) :
    answer r f s = .refused e := by
  rw [err]; rfl

theorem exec_encRead (reg count : Word) (s : State) :
    exec (.encRead reg count) s =
      if count.toNat > s.cfg.maxCount.toNat then .refused .countTooLarge
      else .next (s.withResult (.frame (withTrailer (frameHeader s.cfg Config.fcRead reg count)))) := by
  split
  · next large => exact answer_of_error (by simp [readFrame, countOk_eq_false_iff.mpr large])
  · next fits => exact answer_of_ok (readFrame_ok_iff.mpr ⟨Nat.le_of_not_gt fits, rfl⟩)

/-- Settles O11: the header of R110 is the written-out one, and `withTrailer` appends its CRC low byte first. -/
theorem encReadBuildsTheReadRequest : Obligations.EncReadBuildsTheReadRequest := exec_encRead

theorem exec_encWrite (reg count : Word) (data : List Word) (s : State) :
    exec (.encWrite reg count data) s =
      if count.toNat > s.cfg.maxCount.toNat then .refused .countTooLarge
      else if data.length ≠ count.toNat then .refused .dataLengthMismatch
      else .next (s.withResult (.frame (withTrailer (frameHeader s.cfg Config.fcWrite reg count ++ bytesOfWords data)))) := by
  split
  · next large => exact answer_of_error (by simp [writeFrame, countOk_eq_false_iff.mpr large])
  · next fits =>
    have hc : count ≤ s.cfg.maxCount := Nat.le_of_not_gt fits
    split
    · next other => exact answer_of_error (by simp [writeFrame, (countOk_iff _ _).mpr hc, other])
    · next same => exact answer_of_ok (writeFrame_ok_iff.mpr ⟨hc, not_not.mp same, rfl⟩)

/-- Settles O12: the body whose CRC is appended is the header and the words' bytes. -/
theorem encWriteBuildsTheWriteRequest : Obligations.EncWriteBuildsTheWriteRequest := exec_encWrite

theorem exec_decResp (raw hdr : List Byte) (count : Word) (s : State) :
    exec (.decResp raw hdr count) s =
      if count.toNat > s.cfg.maxCount.toNat ∨ hdr.length ≠ 8 then .refused .badOperand
      else .next (s.withResult (.decoded (parseResponse raw hdr count))) := by
  split
  · next bad => exact answer_of_error (by simp [decodeResp, respOperandsOk_eq_false_iff.mpr bad])
  · next good =>
    obtain ⟨fits, eight⟩ := not_or.mp good
    exact answer_of_ok (decodeResp_of_operands (Nat.le_of_not_gt fits) (not_not.mp eight))

/-- The trailer test reads the last two bytes, low byte first (R103). -/
theorem trailerOk_iff {r : List Byte} {n : Nat} (length : r.length = n) :
    trailerOk r = true ↔
      (r.getD (n - 2) 0).setWidth 16 ||| ((r.getD (n - 1) 0).setWidth 16 <<< 8) = crc16 (r.take (n - 2)) := by
  subst length
  rw [trailerOk, decide_eq_true_iff, joinBytes, BitVec.or_comm]

/-- Settles O13: each link of the chain is the check of `parseResponse` that stands there, and the words are read off by
`wordsOfBytes_slice`. -/
theorem decRespChecksInOrderAndYieldsWords : Obligations.DecRespChecksInOrderAndYieldsWords := by
  intro raw hdr count s L r answer
  suffices judged : parseResponse raw hdr count = answer by rw [exec_decResp, judged]; rfl
  simp only [answer]
  split
  · next short => exact parseResponse_of_short short
  · next long =>
    have enough : frameLength count ≤ raw.length := Nat.le_of_not_gt long
    have length : r.length = L := List.length_take_of_le enough
    split
    · next other => exact parseResponse_of_header enough other
    · next same =>
      have header : r.take 8 = hdr := not_not.mp same
      split
      · next wrong =>
        exact parseResponse_of_trailer enough header (Bool.eq_false_iff.mpr (mt (trailerOk_iff length).mp wrong))
      · next right =>
        have trailer := (trailerOk_iff length).mpr (not_not.mp right)
        exact parseResponse_ok_iff.mpr ⟨enough, header, trailer, wordsOfBytes_slice r count.toNat (by omega)⟩

/-! ### The round trip -/

theorem responseOf_length (hdr : List Byte) (ws : List Word) :
    (responseOf hdr ws).length = hdr.length + 2 * ws.length + 2 := by
  simp [responseOf]

/-- A response with the expected header and number of words decodes to its words, whatever follows it (R116). -/
theorem parseResponse_responseOf {hdr : List Byte} {count : Word} {ws : List Word} (eight : hdr.length = 8)
    (words : ws.length = count.toNat) (t : List Byte) :
    parseResponse (responseOf hdr ws ++ t) hdr count = .ok ws := by
  have length : (responseOf hdr ws).length = frameLength count := by
    rw [responseOf_length, frameLength]
    omega
  have truncated : (responseOf hdr ws ++ t).take (frameLength count) = responseOf hdr ws := List.take_left' length
  have parts : responseOf hdr ws = hdr ++ (bytesOfWords ws ++ le16 (crc16 (hdr ++ bytesOfWords ws))) :=
    List.append_assoc _ _ _
  rw [parseResponse_ok_iff, truncated]
  refine ⟨by simp [length], ?_, trailerOk_withTrailer _, ?_⟩
  · rw [parts, List.take_left' eight]
  · rw [parts, List.drop_left' eight, List.take_left' (by simp [words]), wordsOfBytes_bytesOfWords]

/-- Settles O14: the header of a read request is eight bytes, and a response alone is one with nothing after it. -/
theorem readResponseRoundTrip : Obligations.ReadResponseRoundTrip := by
  intro c reg count ws t f words built
  obtain ⟨fits, rfl⟩ := readFrame_ok_iff.mp built
  have decodes : ∀ t, decodeResp c (responseOf (frameHeader c Config.fcRead reg count) ws ++ t)
      (frameHeader c Config.fcRead reg count) count = .ok (.ok ws) := fun t =>
    decodeResp_ok_iff.mpr ⟨fits, frameHeader_length .., parseResponse_responseOf (frameHeader_length ..) words t⟩
  have alone := decodes []
  rw [List.append_nil] at alone
  exact ⟨alone, decodes t⟩

/-! ### The mutation law -/

/-- R117 on the frame that DEC_RESP judges, without the operands' check. -/
theorem parseResponse_set {resp hdr : List Byte} {count : Word} {ws : List Word} {j : Nat} {b : Byte}
    (accepted : parseResponse resp hdr count = .ok ws) (changed : b ≠ resp.getD j 0) :
    parseResponse (resp.set j b) hdr count =
      if j < 8 then .headerMismatch else if j < frameLength count then .checksumError else .ok ws := by
  obtain ⟨enough, header, trailer, words⟩ := parseResponse_ok_iff.mp accepted
  have enough' : frameLength count ≤ (resp.set j b).length := by rwa [List.length_set]
  have judged : (resp.set j b).take (frameLength count) = (resp.take (frameLength count)).set j b := List.take_set
  have length : (resp.take (frameLength count)).length = frameLength count := List.length_take_of_le enough
  have ten : 10 ≤ frameLength count := Nat.le_add_right ..
  have changed' (inside : j < frameLength count) : b ≠ (resp.take (frameLength count)).getD j 0 := by
    simpa [List.getD, inside] using changed
  split
  · next inHeader =>
    refine parseResponse_of_header enough' ?_
    rw [judged, List.take_set, ← header]
    refine set_ne_self (by simp; omega) ?_
    simpa [List.getD, inHeader] using changed' (by omega)
  · next beyondHeader =>
    have header' : ((resp.set j b).take (frameLength count)).take 8 = hdr := by
      rw [judged, List.take_set_of_le (by omega), header]
    split
    · next inside =>
      refine parseResponse_of_trailer enough' header' ?_
      rw [judged]
      exact trailerOk_set trailer (by omega) (by omega) (changed' inside)
    · next outside =>
      have same : (resp.set j b).take (frameLength count) = resp.take (frameLength count) :=
        List.take_set_of_le (by omega)
      exact parseResponse_ok_iff.mpr ⟨enough', header', by rwa [same], by rwa [same]⟩

/-- Settles O15: the operands are those of the accepted response. -/
theorem singleByteMutationIsDetected : Obligations.SingleByteMutationIsDetected := by
  intro c resp hdr count ws j b accepted _ changed
  obtain ⟨fits, eight, parsed⟩ := decodeResp_ok_iff.mp accepted
  exact decodeResp_ok_iff.mpr ⟨fits, eight, parseResponse_set parsed changed⟩

end Machine
end Sys2Proof
end

section
/-! A request frame on the port (R71, R72, R115, R173; log 6): while the channel is free it is carried in an exchange with its own
header. -/

namespace Sys2Proof.Machine

/-- Acceptance refuses an expected count above `MAX_COUNT` (R173). -/
theorem acceptExchange_of_count_gt {f h : List Byte} {n : Word} {s : State} (large : n.toNat > s.cfg.maxCount.toNat) :
    acceptExchange f h n s = .refused .badOperand := by
  simp [acceptExchange, respOperandsOk_eq_false_iff.mpr (.inl large)]

theorem exec_reqRead_of_idle (dev : Byte) (reg count crc : Word) {s : State} (idle : s.xstate = .idle) :
    exec (.reqRead dev reg count crc) s =
      if count.toNat > s.cfg.maxCount.toNat then .refused .countTooLarge
      else .next ((s.withResult .started).accepted (frameBytes dev Config.fcRead reg count [] crc)
        (frameBody dev Config.fcRead reg count []) count) := by
  split
  · next large => simp [exec, execReqRead, idle, countOk_eq_false_iff.mpr large]
  · next fits =>
    have hc : count ≤ s.cfg.maxCount := Nat.le_of_not_gt fits
    rw [exec, execReqRead, if_pos idle, if_pos ((countOk_iff _ _).mpr hc)]
    exact acceptExchange_of_operands hc rfl (frameBytes_length_le (Nat.zero_le _))

theorem exec_reqWrite_of_idle (dev : Byte) (reg count : Word) (data : List Word) (crc : Word) {s : State}
    (idle : s.xstate = .idle) :
    exec (.reqWrite dev reg count data crc) s =
      if count.toNat > s.cfg.maxCount.toNat then .refused .countTooLarge
      else if data.length ≠ count.toNat then .refused .dataLengthMismatch
      else if s.cfg.writeAckCount.toNat > s.cfg.maxCount.toNat then .refused .badOperand
      else .next ((s.withResult .started).accepted (frameBytes dev Config.fcWrite reg count data crc)
        (frameBody dev Config.fcWrite reg count []) s.cfg.writeAckCount) := by
  split
  · next large => simp [exec, execReqWrite, idle, countOk_eq_false_iff.mpr large]
  · next fits =>
    have hc := (countOk_iff s.cfg count).mpr (Nat.le_of_not_gt fits)
    split
    · next other => simp [exec, execReqWrite, idle, hc, other]
    · next same =>
      have length : data.length = count.toNat := not_not.mp same
      have accepts : exec (.reqWrite dev reg count data crc) s =
          acceptExchange (frameBytes dev Config.fcWrite reg count data crc) (frameBody dev Config.fcWrite reg count [])
            s.cfg.writeAckCount (s.withResult .started) := by
        rw [exec, execReqWrite, if_pos idle, if_pos hc, if_pos length]
      rw [accepts]
      split
      · next ackLarge => exact acceptExchange_of_count_gt ackLarge
      · next ackFits =>
        exact acceptExchange_of_operands (Nat.le_of_not_gt ackFits) rfl
          (frameBytes_length_le (length.trans_le (Nat.le_of_not_gt fits)))

/-- Settles O27: the accepted frame is the request's bytes, and the body of a frame without data is its first eight bytes. -/
theorem requestFrameStartsItsExchange : Obligations.RequestFrameStartsItsExchange :=
  fun dev reg count crc data _ idle =>
    ⟨exec_reqRead_of_idle dev reg count crc idle, exec_reqWrite_of_idle dev reg count data crc idle⟩

end Sys2Proof.Machine
end

section
/-! The register interpreter (R130, R132): the tests of INTERP as a table of the classes, whose order is irrelevant because the
classes are disjoint. -/

namespace Sys2Proof

theorem sext16_eq_toInt (w : Word) : sext16 w = w.toInt := by
  rw [sext16, BitVec.toInt_eq_toNat_cond]
  split <;> split <;> omega

theorem Config.classesDisjoint_iff {ls : List (List Word)} :
    classesDisjoint ls = true ↔ ls.Pairwise List.Disjoint := by
  induction ls with
  | nil => simp [classesDisjoint]
  | cons l ls ih => simp [classesDisjoint, ih, List.Disjoint]

theorem Config.classes_pairwise_disjoint {c : Config} (wf : c.wf = true) : c.classes.Pairwise List.Disjoint := by
  simp only [Config.wf, Bool.and_eq_true] at wf
  obtain ⟨⟨⟨-, disjoint⟩, -⟩, -⟩ := wf
  exact classesDisjoint_iff.mp disjoint

namespace Machine

/-- `val(a, w)` of R130 as a rational. -/
theorem regValue_cast (c : Config) (a w : Word) :
    (regValue c a w : Rat) = if a ∈ c.signed16 then (w.toInt : Rat) else (w.toNat : Rat) := by
  rw [regValue, sext16_eq_toInt]
  split <;> norm_cast

/-- The table of R130: each class with the value of its addresses. -/
def classTable (c : Config) (a w : Word) : List (List Word × PhysicalValue) :=
  [(c.boolOnOff, .label (if w = 1 then "on" else "off")),
   (c.boolOnline, .label (if w = 1 then "Online" else "Offline")),
   (c.scale10, .num ((regValue c a w : Rat) / 10)),
   (c.scale100, .num ((regValue c a w : Rat) / 100)),
   (c.scale1, .num (regValue c a w : Rat)),
   ([c.enumBatType], .label (enumLabel c.mapBatType w)),
   ([c.enumBatVolt], .label (enumLabel c.mapBatVolt w)),
   ([c.enumEmState], .label (enumLabel c.mapEmState w))]

theorem classTable_map_fst (c : Config) (a w : Word) : (classTable c a w).map Prod.fst = c.classes := rfl

/-- The value of the first entry whose class holds the address, or the value of an unmapped address. -/
def firstValue (a : Word) (unmapped : PhysicalValue) : List (List Word × PhysicalValue) → PhysicalValue
  | [] => unmapped
  | (l, v) :: table => if a ∈ l then v else firstValue a unmapped table

/-- The tests of R132 are the table's, from its first entry to its last. -/
theorem interpret_eq_firstValue (c : Config) (a w : Word) :
    interpret c a w = firstValue a (.num (w.toNat : Rat)) (classTable c a w) := by
  simp [interpret, firstValue, classTable, Rat.mkRat_eq_div]

/-- Among disjoint classes the one that holds the address gives the value, wherever it stands. -/
theorem firstValue_of_mem {a : Word} {u v : PhysicalValue} {l : List Word} {table : List (List Word × PhysicalValue)}
    (disjoint : (table.map Prod.fst).Pairwise List.Disjoint) (entry : (l, v) ∈ table) (holds : a ∈ l) :
    firstValue a u table = v := by
  induction table with
  | nil => cases entry
  | cons d table ih =>
    rw [List.map_cons, List.pairwise_cons] at disjoint
    obtain ⟨apart, disjoint⟩ := disjoint
    obtain rfl | later := List.mem_cons.mp entry
    · exact if_pos holds
    · have other : a ∉ d.1 := fun first => apart l (List.mem_map_of_mem later) first holds
      rw [firstValue, if_neg other, ih disjoint later]

theorem firstValue_of_unmapped {a : Word} {u : PhysicalValue} {table : List (List Word × PhysicalValue)}
    (unmapped : ∀ l ∈ table.map Prod.fst, a ∉ l) : firstValue a u table = u := by
  induction table with
  | nil => rfl
  | cons d table ih =>
    rw [List.map_cons, List.forall_mem_cons] at unmapped
    obtain ⟨other, later⟩ := unmapped
    rw [firstValue, if_neg other, ih later]

/-- The order of the tests does not change the result (R132). -/
theorem interpret_of_class {c : Config} {a w : Word} {l : List Word} {v : PhysicalValue} (wf : c.wf = true)
    (entry : (l, v) ∈ classTable c a w) (holds : a ∈ l) : interpret c a w = v := by
  rw [interpret_eq_firstValue]
  exact firstValue_of_mem (Config.classes_pairwise_disjoint wf) entry holds

/-- An address of no class passes through (R132). -/
theorem interpret_of_unmapped {c : Config} {a : Word} (w : Word) (unmapped : ∀ l ∈ c.classes, a ∉ l) :
    interpret c a w = .num (w.toNat : Rat) := by
  rw [interpret_eq_firstValue]
  exact firstValue_of_unmapped unmapped

theorem exec_interp (a w : Word) (s : State) :
    exec (.interp a w) s = .next { s with result := .value (interpret s.cfg a w) } := rfl

/-- Settles O16: each class is an entry of the table. -/
theorem interpGivesTheClassValue : Obligations.InterpGivesTheClassValue := by
  intro a w s c val enum
  refine ⟨interpret c a w, exec_interp a w s, fun wf => ?_⟩
  have value : (regValue c a w : Rat) = val := regValue_cast c a w
  have gives {l : List Word} {v : PhysicalValue} (entry : (l, v) ∈ classTable c a w) (holds : a ∈ l) :
      interpret c a w = v := interpret_of_class wf entry holds
  rw [← value]
  refine ⟨gives ?_, gives ?_, gives ?_, gives ?_, gives ?_, fun is => gives ?_ (List.mem_singleton.mpr is),
    fun is => gives ?_ (List.mem_singleton.mpr is), fun is => gives ?_ (List.mem_singleton.mpr is),
    interpret_of_unmapped w⟩
  all_goals simp [classTable, enum, enumLabel]

end Machine
end Sys2Proof
end

section
/-! The topic look-up (R133): the substitution of `<id>` in a template with none and with one. No proper suffix of `<id>` begins
with `<`, so an occurrence cannot overlap another and the brackets before it are kept. -/

namespace Sys2Proof.Machine

/-- The marker of R133. -/
def idTag : List Char := ['<', 'i', 'd', '>']

theorem substId_idTag_append (id rest : List Char) : substId id (idTag ++ rest) = id ++ substId id rest := by
  simp [idTag, substId]

theorem substId_cons_of_not_prefix {id rest : List Char} {ch : Char} (other : ¬idTag <+: ch :: rest) :
    substId id (ch :: rest) = ch :: substId id rest := by
  rw [substId]
  rintro tail rfl rfl
  exact other (List.prefix_append idTag tail)

theorem substId_of_not_infix {id t : List Char} (absent : ¬idTag <:+: t) : substId id t = t := by
  induction t with
  | nil => rfl
  | cons ch t ih =>
    rw [List.infix_cons_iff, not_or] at absent
    obtain ⟨notHere, notLater⟩ := absent
    rw [substId_cons_of_not_prefix notHere, ih notLater]

/-- No occurrence of the marker begins inside a nonempty part before it, unless that part holds it whole. -/
theorem not_idTag_prefix_append {ch : Char} {pre : List Char} (post : List Char) (other : ¬idTag <+: ch :: pre) :
    ¬idTag <+: ch :: (pre ++ (idTag ++ post)) := by
  match pre with
  | [] | [_] | [_, _] => simp [idTag]
  | _ :: _ :: _ :: _ => simpa [idTag] using other

theorem substId_append_idTag {id pre post : List Char} (before : ¬idTag <:+: pre) :
    substId id (pre ++ (idTag ++ post)) = pre ++ (id ++ substId id post) := by
  induction pre with
  | nil => exact substId_idTag_append id post
  | cons ch pre ih =>
    rw [List.infix_cons_iff, not_or] at before
    obtain ⟨notHere, notLater⟩ := before
    rw [List.cons_append, substId_cons_of_not_prefix (not_idTag_prefix_append post notHere), ih notLater,
      List.cons_append]

theorem exec_topic (a : Word) (s : State) :
    exec (.topic a) s = .next { s with result := .topic (topicOf s.cfg a) } := rfl

theorem topicOf_of_lookup {c : Config} {a : Word} {t : List Char}
    (entry : c.topicLut.lookup a = some (String.ofList t)) :
    topicOf c a = some (String.ofList (substId c.deviceId.toList t)) := by
  simp [topicOf, entry]

/-- Settles O17: the substitution goes through what stands before the marker, replaces it, and leaves what follows. -/
theorem topicSubstitutesTheDeviceId : Obligations.TopicSubstitutesTheDeviceId := by
  intro a s tag
  refine ⟨⟨_, exec_topic a s⟩, fun unlisted => ?_, fun pre post before after entry => ?_, fun t absent entry => ?_⟩
  · rw [exec_topic, topicOf, unlisted, Option.map_none]
  · have replaced : substId s.cfg.deviceId.toList (pre ++ tag ++ post) = pre ++ s.cfg.deviceId.toList ++ post := by
      rw [List.append_assoc, List.append_assoc]
      exact (substId_append_idTag before).trans (by rw [substId_of_not_infix after])
    rw [exec_topic, topicOf_of_lookup entry, replaced]
  · rw [exec_topic, topicOf_of_lookup entry, substId_of_not_infix absent]

end Sys2Proof.Machine
end

section
/-! The reassembler (R150 to R155): which addresses are bases and companions, what one word does in each case of R152, and the
words of a response one after the other (R154). -/

namespace Sys2Proof

/-- `(high << 16) | low` puts the two words side by side. -/
theorem joinWords_toNat (high low : Word) : (joinWords high low).toNat = high.toNat * 2 ^ 16 + low.toNat := by
  have shifted : high.toNat * 2 ^ 16 < 2 ^ 32 := by omega
  rw [joinWords, BitVec.toNat_or, BitVec.toNat_shiftLeft, BitVec.toNat_setWidth_of_le (by decide),
    BitVec.toNat_setWidth_of_le (by decide), Nat.shiftLeft_eq, Nat.mod_eq_of_lt shifted, Nat.mul_comm,
    Nat.two_pow_add_eq_or_of_lt low.isLt]

/-- Something made of each word of a response and its address, the first word apart (R154). -/
theorem mapIdx_address_cons {α : Type} (f : Word → Word → α) (reg w : Word) (ws : List Word) :
    ((w :: ws).mapIdx fun n v => f (reg + BitVec.ofNat 16 n) v) =
      f reg w :: ws.mapIdx fun n v => f (reg + 1 + BitVec.ofNat 16 n) v := by
  have next (n : Nat) : reg + BitVec.ofNat 16 (n + 1) = reg + 1 + BitVec.ofNat 16 n := by
    rw [BitVec.ofNat_add, BitVec.add_comm (BitVec.ofNat 16 n), BitVec.add_assoc]
    rfl
  simp only [List.mapIdx_cons, next, BitVec.add_zero]

/-! ### The pair addresses (D38) -/

namespace Config

theorem pairs_eq_ofFn (c : Config) : c.pairs = List.ofFn c.pairLow.get := rfl

/-- What D38 says of the pairs: distinct bases, none with companion 0, none the companion of another. -/
theorem pairLow_of_wf {c : Config} (wf : c.wf = true) :
    Function.Injective c.pairLow.get ∧ (∀ k, c.pairLow.get k + 1 ≠ 0) ∧ ∀ j k, c.pairLow.get k + 1 ≠ c.pairLow.get j := by
  have pairs : c.pairsWf = true := by
    simp only [Config.wf, Bool.and_eq_true] at wf
    obtain ⟨⟨⟨⟨⟨-, pairs⟩, -⟩, -⟩, -⟩, -⟩ := wf
    exact pairs
  simp only [pairsWf, pairs_eq_ofFn, Bool.and_eq_true, decide_eq_true_eq, List.nodup_ofFn, List.all_eq_true,
    Bool.not_eq_true', List.contains_eq_mem, decide_eq_false_iff_not, List.mem_ofFn,
    not_exists, forall_exists_index, forall_apply_eq_imp_iff] at pairs
  obtain ⟨distinct, apart⟩ := pairs
  refine ⟨distinct, fun k zero => ?_, fun j k meet => ?_⟩
  · obtain ⟨low, -⟩ := apart k
    exact low (by bv_omega)
  · obtain ⟨-, noBase⟩ := apart k
    exact noBase j meet.symm

end Config

namespace Machine

theorem pairLow_get_of_pairSlot {c : Config} {a : Word} {i : Fin 5} (slot : pairSlot c a = some i) :
    c.pairLow.get i = a := by
  unfold pairSlot at slot
  split_ifs at slot with h0 h1 h2 h3 h4 <;> cases slot <;> exact Eq.symm ‹_›

theorem pairSlot_eq_none_iff {c : Config} {a : Word} : pairSlot c a = none ↔ ∀ k, a ≠ c.pairLow.get k := by
  constructor
  · intro noSlot k
    unfold pairSlot at noSlot
    split_ifs at noSlot with h0 h1 h2 h3 h4
    fin_cases k
    exacts [h0, h1, h2, h3, h4]
  · intro noBase
    cases slot : pairSlot c a with
    | none => rfl
    | some i => exact absurd (pairLow_get_of_pairSlot slot).symm (noBase i)

/-- A base address is found at its own place, since the bases are distinct. -/
theorem pairSlot_base {c : Config} (wf : c.wf = true) (k : Fin 5) : pairSlot c (c.pairLow.get k) = some k := by
  obtain ⟨distinct, -, -⟩ := Config.pairLow_of_wf wf
  cases slot : pairSlot c (c.pairLow.get k) with
  | none => exact absurd rfl (pairSlot_eq_none_iff.mp slot k)
  | some i => rw [distinct (pairLow_get_of_pairSlot slot)]

theorem pairSlot_companion {c : Config} (wf : c.wf = true) (k : Fin 5) : pairSlot c (c.pairLow.get k + 1) = none := by
  obtain ⟨-, -, noBase⟩ := Config.pairLow_of_wf wf
  exact pairSlot_eq_none_iff.mpr fun j => noBase j k

theorem highSlot_companion {c : Config} (wf : c.wf = true) (k : Fin 5) :
    highSlot c (c.pairLow.get k + 1) = some k := by
  obtain ⟨-, nonzero, -⟩ := Config.pairLow_of_wf wf
  rw [highSlot, if_neg (nonzero k), BitVec.add_sub_cancel, pairSlot_base wf]

theorem highSlot_eq_none_iff {c : Config} {a : Word} : highSlot c a = none ↔ ∀ k, a ≠ 0 → a - 1 ≠ c.pairLow.get k := by
  by_cases zero : a = 0
  · simp [highSlot, zero]
  · rw [highSlot, if_neg zero, pairSlot_eq_none_iff]
    exact ⟨fun other k _ => other k, fun other k => other k zero⟩

/-! ### The value of a pair (R155) -/

theorem pairValue_unsigned {c : Config} {p : Word} (x : Long) (unsigned : p = c.pairUnsigned)
    (divisor : c.pairDivUnsigned ≠ 0) : pairValue c p x = .num ((x.toNat : Rat) / (c.pairDivUnsigned : Rat)) := by
  simp [pairValue, unsigned, divisor, Rat.mkRat_eq_div]

theorem pairValue_signed {c : Config} {p : Word} (x : Long) (signed : p ≠ c.pairUnsigned) :
    pairValue c p x = .num ((sext32 x : Rat) / 10) := by
  simp [pairValue, signed, Rat.mkRat_eq_div]

/-! ### One word (R152) -/

section
variable {c : Config} {pend : Five (Option Word)} {a : Word} (w : Word) {i : Fin 5}

theorem reassemble_low (low : pairSlot c a = some i) : reassemble c pend a w = ⟨pend.set i (some w), [], .held⟩ := by
  simp [reassemble, low]

theorem reassemble_high_held {l : Word} (low : pairSlot c a = none) (high : highSlot c a = some i)
    (held : pend.get i = some l) :
    reassemble c pend a w = ⟨pend.set i none, [⟨a - 1, pairValue c (a - 1) (joinWords w l)⟩], .combined⟩ := by
  simp [reassemble, low, high, held]

theorem reassemble_high_missing (low : pairSlot c a = none) (high : highSlot c a = some i)
    (missing : pend.get i = none) : reassemble c pend a w = ⟨pend, [], .dropped⟩ := by
  simp [reassemble, low, high, missing]

theorem reassemble_plain (low : pairSlot c a = none) (high : highSlot c a = none) :
    reassemble c pend a w = ⟨pend, [⟨a, interpret c a w⟩], .passed⟩ := by
  simp [reassemble, low, high]

end

/-- With room for its facts RSM_WORD does what R152 says of the accumulator, and nothing else. -/
theorem exec_rsmWord_of_room {a w : Word} {s : State} {r : RsmStep} (word : reassemble s.cfg s.pend a w = r)
    (room : s.hasRoom r.facts.length = true) :
    exec (.rsmWord a w) s =
      .next { s with pend := r.pend, out := s.out ++ r.facts, result := .reassembled r.outcome } := by
  subst word
  exact if_pos room

/-- Settles O18: each operation is this one update. -/
theorem rsmBeginAndEndClearTheAccumulator : Obligations.RsmBeginAndEndClearTheAccumulator :=
  fun _ => ⟨rfl, rfl⟩

/-- Settles O19: no fact is emitted, so there is room; the entry written is the base's own. -/
theorem rsmWordHoldsALowWord : Obligations.RsmWordHoldsALowWord := by
  intro k w s wf
  have word := reassemble_low (pend := s.pend) w (pairSlot_base wf k)
  refine ⟨_, exec_rsmWord_of_room word s.hasRoom_zero, s.pend.get_set_self k _,
    fun j other => s.pend.get_set_ne k j _ other, by simp, rfl⟩

/-- Settles O20: a companion is no base, and its slot is its base's; the joined word and its sign are those of `x`. -/
theorem rsmWordCombinesOrDropsAHighWord : Obligations.RsmWordCombinesOrDropsAHighWord := by
  intro k w s wf p
  have low : pairSlot s.cfg (p + 1) = none := pairSlot_companion wf k
  have high : highSlot s.cfg (p + 1) = some k := highSlot_companion wf k
  refine ⟨fun l held room => ?_, fun missing => ?_⟩
  · have word := reassemble_high_held w low high held
    rw [BitVec.add_sub_cancel] at word
    intro x
    have joined : (joinWords w l).toNat = x := joinWords_toNat w l
    refine ⟨_, pairValue s.cfg p (joinWords w l), exec_rsmWord_of_room word room, fun unsigned divisor => ?_,
      fun signed => ?_, rfl, s.pend.get_set_self k none, fun j other => s.pend.get_set_ne k j none other, rfl, rfl⟩
    · rw [pairValue_unsigned _ unsigned divisor, joined]
    · rw [pairValue_signed _ signed, sext32, joined]
  · rw [exec_rsmWord_of_room (reassemble_high_missing w low high missing) s.hasRoom_zero, List.append_nil]

/-- Settles O21: the address has neither a low nor a high slot, and its one fact has room. -/
theorem rsmWordPassesOtherWords : Obligations.RsmWordPassesOtherWords := by
  intro a w s room noBase noCompanion
  have word := reassemble_plain (pend := s.pend) w (pairSlot_eq_none_iff.mpr noBase)
    (highSlot_eq_none_iff.mpr noCompanion)
  exact exec_rsmWord_of_room word room

/-! ### The words of a response (R154) -/

/-- Words of no pair leave the accumulator alone, whatever it holds, and each gives its fact. -/
theorem reassembleWords_plain {c : Config} (pend : Five (Option Word)) {reg : Word} {ws : List Word}
    (plain : ∀ a ∈ ws.mapIdx fun n _ => reg + BitVec.ofNat 16 n, pairSlot c a = none ∧ highSlot c a = none) :
    reassembleWords c pend reg ws =
      (pend, ws.mapIdx fun n w => ⟨reg + BitVec.ofNat 16 n, interpret c (reg + BitVec.ofNat 16 n) w⟩) := by
  induction ws generalizing reg with
  | nil => rfl
  | cons w ws ih =>
    rw [mapIdx_address_cons fun a _ => a, List.forall_mem_cons] at plain
    obtain ⟨⟨low, high⟩, later⟩ := plain
    rw [mapIdx_address_cons fun a v => (⟨a, interpret c a v⟩ : Fact), reassembleWords, reassemble_plain w low high,
      ih later, List.singleton_append]

/-- Settles O23: the response starts with the empty accumulator. -/
theorem plainResponseGivesOneFactPerWord : Obligations.PlainResponseGivesOneFactPerWord := by
  intro c reg ws plain
  rw [responseFacts, reassembleWords_plain pendEmpty]
  intro a member
  obtain ⟨n, bound, rfl⟩ := List.mem_mapIdx.mp member
  exact plain n bound

/-- An unbounded output has room for any number of facts (R57). -/
theorem State.hasRoom_of_unbounded {s : State} (unbounded : s.cfg.fifoDepth = none) (m : Nat) : s.hasRoom m = true := by
  simp [State.hasRoom, unbounded]

/-- Operations run one list after the other. -/
theorem execAll_append {is js : List Instr} {s t : State} (first : execAll is s = .next t) :
    execAll (is ++ js) s = execAll js t := by
  induction is generalizing s with
  | nil => cases first; rfl
  | cons i is ih =>
    rw [List.cons_append, execAll]
    rw [execAll] at first
    cases one : exec i s with
    | next u => exact ih (by rwa [one] at first)
    | fault f => rw [one] at first; cases first
    | refused r => rw [one] at first; cases first

/-- One RSM_WORD per word, from any accumulator: the accumulator and the facts of R154, and no other change but the result
lines. -/
theorem execAll_rsmWords {s : State} (unbounded : s.cfg.fifoDepth = none) (reg : Word) (ws : List Word) :
    ∃ r, execAll (ws.mapIdx fun n w => Instr.rsmWord (reg + BitVec.ofNat 16 n) w) s =
      .next { s with
        pend := (reassembleWords s.cfg s.pend reg ws).1
        out := s.out ++ (reassembleWords s.cfg s.pend reg ws).2
        result := r } := by
  induction ws generalizing s reg with
  | nil => exact ⟨s.result, by simp [execAll, reassembleWords]⟩
  | cons w ws ih =>
    have first := exec_rsmWord_of_room (a := reg) (w := w) rfl (s.hasRoom_of_unbounded unbounded _)
    obtain ⟨r, rest⟩ := ih (s := { s with
      pend := (reassemble s.cfg s.pend reg w).pend
      out := s.out ++ (reassemble s.cfg s.pend reg w).facts
      result := .reassembled (reassemble s.cfg s.pend reg w).outcome }) unbounded (reg + 1)
    refine ⟨r, ?_⟩
    rw [mapIdx_address_cons, execAll, first]
    simpa [reassembleWords] using rest

/-- Settles O24: RSM_BEGIN gives the words the empty accumulator that `responseFacts` starts with, and RSM_END empties what
they leave. -/
theorem processRespEqualsItsExpansion : Obligations.ProcessRespEqualsItsExpansion := by
  intro s reg ws unbounded
  obtain ⟨r, words⟩ := execAll_rsmWords (s := { s with pend := pendEmpty, result := .none }) unbounded reg ws
  exact ⟨_, execAll_append words, rfl, rfl, rfl⟩

end Machine
end Sys2Proof
end

section
/-! The exchange FSM (R171 to R178): the rows of its table, and how the scheduler consumes an outcome. -/

namespace Sys2Proof.Machine

/-! ### The channel's answers -/

section
variable {s : State}

theorem sendStep_of_cancel (tx : s.xstate = .tx) (cancelled : s.cancel = true) (ok : Bool) :
    sendStep ok s = { s with xstate := .cancelled } := by
  simp [sendStep, tx, cancelled]

theorem sendStep_true (tx : s.xstate = .tx) (live : s.cancel = false) :
    sendStep true s = { s with wire := s.wire ++ [s.xframe], xstate := .rx } := by
  simp [sendStep, tx, live]

theorem sendStep_false (tx : s.xstate = .tx) (live : s.cancel = false) : sendStep false s = s.raiseTransportFailure := by
  simp [sendStep, tx, live]

theorem readFailStep_of_rx (rx : s.xstate = .rx) : readFailStep s = s.raiseTransportFailure := if_pos rx

theorem receiveStep_of_not_rx (elsewhere : s.xstate ≠ .rx) (raw : List Byte) : receiveStep raw s = .next s :=
  if_neg elsewhere

end

/-- The bytes a read returns are judged by the X_RX step, frame or not (R172; log 6). -/
theorem turnStep_response (raw : List Byte) (s : State) : turnStep (.input (.response raw)) s = receiveStep raw s := by
  cases decodes : decodeResponse raw with
  | error e => simp only [turnStep, inputStep, decode, decodes]
  | ok i =>
    have bytes : encode i = .response raw := encode_of_decodeResponse decodes
    rw [turnStep, inputStep_of_decode (x := .response raw) decodes]
    cases i with
    | rspRead dev reg count data crc => cases bytes; rfl
    | rspWrite dev reg count data crc => cases bytes; rfl
    | _ => cases bytes

/-! ### The outcome is consumed (R178) -/

section
variable {s : State}

theorem schedulerStep_of_ok (ok : s.xstate = .ok) (running : s.sstate ≠ .halted) :
    schedulerStep s = .next (completeOk s) := by
  simp [schedulerStep, ok, running]

theorem schedulerStep_of_cancelled (cancelled : s.xstate = .cancelled) (running : s.sstate ≠ .halted) :
    schedulerStep s = .next (completeCancelled s) := by
  simp [schedulerStep, cancelled, running]

end

/-- The exchange FSM is back in X_IDLE and its words are kept (R174, last row). -/
def Consumed (s t : State) : Prop := t.xstate = .idle ∧ t.xwords = s.xwords

/-- The end of a state leaves the exchange FSM and its words alone. -/
def KeepsExchange (after : State → State) : Prop := ∀ s, (after s).xstate = s.xstate ∧ (after s).xwords = s.xwords

theorem afterTelem_keepsExchange : KeepsExchange afterTelem := by
  intro s
  unfold afterTelem
  split <;> exact ⟨rfl, rfl⟩

theorem afterConfirm_keepsExchange : KeepsExchange afterConfirm := by
  intro s
  unfold afterConfirm
  split <;> exact ⟨rfl, rfl⟩

theorem afterDiag_keepsExchange : KeepsExchange afterDiag := fun _ => ⟨rfl, rfl⟩

theorem processStep_consumed {s : State} (unbounded : s.cfg.fifoDepth = none) (reg : Word) {after : State → State}
    (keeps : KeepsExchange after) : Consumed s (processStep reg after s) := by
  rw [processStep, if_pos (s.hasRoom_of_unbounded unbounded _)]
  exact keeps _

/-- With room for its facts every complete step on X_OK consumes the outcome (R192 to R195). -/
theorem completeOk_consumed {s : State} (unbounded : s.cfg.fifoDepth = none) (running : s.sstate ≠ .halted) :
    Consumed s (completeOk s) := by
  unfold completeOk
  split
  · exact processStep_consumed unbounded _ afterTelem_keepsExchange
  · exact ⟨rfl, rfl⟩
  · exact processStep_consumed unbounded _ afterConfirm_keepsExchange
  · exact processStep_consumed unbounded _ afterDiag_keepsExchange
  · next halted => exact absurd halted running

/-- Settles O29: each row is the equation of its step; in the last, both complete steps consume the outcome. -/
theorem exchangeFsmFollowsItsTable : Obligations.ExchangeFsmFollowsItsTable := by
  intro s
  refine ⟨fun tx cancelled ok => congrArg _ (sendStep_of_cancel tx cancelled ok),
    fun tx live => congrArg _ (sendStep_true tx live), fun tx live => congrArg _ (sendStep_false tx live),
    fun rx => congrArg _ (readFailStep_of_rx rx),
    fun rx raw ws accepted => (turnStep_response raw s).trans (receiveStep_ok rx accepted),
    fun rx raw e judged error => (turnStep_response raw s).trans (receiveStep_retry rx judged error),
    fun ended running unbounded => ?_⟩
  obtain ok | cancelled := ended
  · exact ⟨_, schedulerStep_of_ok ok running, completeOk_consumed unbounded running⟩
  · exact ⟨_, schedulerStep_of_cancelled cancelled running, rfl, rfl⟩

/-! ### Several turns -/

theorem runTurns_cons_of_next {t : Turn} {s u : State} (next : turnStep t s = .next u) (ts : List Turn) :
    runTurns (t :: ts) s = runTurns ts u := by
  rw [runTurns, next]

/-- A run that ends in a next state took its first turn to one. -/
theorem runTurns_cons_next {t : Turn} {ts : List Turn} {s v : State} (run : runTurns (t :: ts) s = .next v) :
    ∃ u, turnStep t s = .next u ∧ runTurns ts u = .next v := by
  rw [runTurns] at run
  split at run
  · next u first => exact ⟨u, first, run⟩
  · cases run
  · cases run

/-- A read that returns nothing retries (R113, R174). -/
theorem receiveStep_nil {s : State} (rx : s.xstate = .rx) (header : s.xhdr.length = 8) (count : s.xcnt ≤ s.cfg.maxCount) :
    receiveStep [] s = .next { s with xstate := .tx } := by
  have short : parseResponse [] s.xhdr s.xcnt = .lengthError := parseResponse_of_short (by simp [frameLength])
  exact receiveStep_retry rx (decodeResp_ok_iff.mpr ⟨count, header, short⟩) nofun

/-- A written frame that nothing answers: the exchange is where it was, and the channel holds the frame once more (R177). -/
theorem runTurns_unanswered {s : State} (tx : s.xstate = .tx) (live : s.cancel = false) (header : s.xhdr.length = 8)
    (count : s.xcnt ≤ s.cfg.maxCount) (ts : List Turn) :
    runTurns (.chanWrite true :: .input (.response []) :: ts) s = runTurns ts { s with wire := s.wire ++ [s.xframe] } :=
  calc runTurns (.chanWrite true :: .input (.response []) :: ts) s
    _ = runTurns (.input (.response []) :: ts) { s with wire := s.wire ++ [s.xframe], xstate := .rx } :=
      runTurns_cons_of_next (congrArg _ (sendStep_true tx live)) _
    _ = runTurns ts { s with wire := s.wire ++ [s.xframe], xstate := .tx } :=
      runTurns_cons_of_next ((turnStep_response [] { s with wire := s.wire ++ [s.xframe], xstate := .rx }).trans
        (receiveStep_nil rfl header count)) _
    _ = runTurns ts { s with wire := s.wire ++ [s.xframe] } := by rw [← tx]

/-- Settles O32, by induction on the number of attempts. -/
theorem retryHasNoBound : Obligations.RetryHasNoBound := by
  intro n
  induction n with
  | zero => intro s _ _ _ _; simp [runTurns]
  | succ n ih =>
    intro s tx live header count
    have later := ih { s with wire := s.wire ++ [s.xframe] } tx live header count
    rw [List.append_assoc, List.singleton_append, ← List.replicate_succ] at later
    exact (runTurns_unanswered tx live header count _).trans later

/-- Settles O33: the failure leaves X_CANCELLED, which the scheduler completes by halting (R196). -/
theorem transportFailureHaltsTheBlock : Obligations.TransportFailureHaltsTheBlock := by
  intro s t running fails
  have failed : turnStep t s = .next s.raiseTransportFailure := by
    obtain ⟨tx, live, rfl⟩ | ⟨rx, rfl⟩ := fails
    · exact congrArg _ (sendStep_false tx live)
    · exact congrArg _ (readFailStep_of_rx rx)
  have halts : turnStep .scheduler s.raiseTransportFailure = .next (completeCancelled s.raiseTransportFailure) :=
    schedulerStep_of_cancelled rfl running
  refine ⟨failed, ?_⟩
  rw [runTurns_cons_of_next failed, runTurns_cons_of_next halts]
  rfl

end Sys2Proof.Machine
end

section
/-! The channel is written by the X_TX step alone (R171, R175, R179). -/

namespace Sys2Proof.Machine

/-- `xframe` is written to the channel and the exchange goes on to its read (R174, R175). -/
def WritesFrame (s t : State) : Prop :=
  s.xstate = .tx ∧ s.cancel = false ∧ t.wire = s.wire ++ [s.xframe] ∧ t.xstate = .rx ∧ t.xframe = s.xframe

theorem ExecEffect.wire_eq {i : Instr} {s t : State} (e : ExecEffect i s t) : t.wire = s.wire := by
  cases e <;> rfl

theorem SchedulerEffect.wire_eq {s t : State} (e : SchedulerEffect s t) : t.wire = s.wire := by
  cases e <;> rfl

theorem receiveStep_wire {raw : List Byte} {s t : State} (h : receiveStep raw s = .next t) : t.wire = s.wire := by
  obtain ⟨-, rfl⟩ | ⟨-, ws, -, rfl⟩ | ⟨-, rfl⟩ := receiveStep_cases h <;> rfl

@[simp] theorem readFailStep_wire (s : State) : (readFailStep s).wire = s.wire := by
  obtain ⟨-, e⟩ | ⟨-, e⟩ := readFailStep_cases s <;> rw [e]
  exact s.raiseTransportFailure_wire

theorem sendStep_wire_cases (ok : Bool) (s : State) : (sendStep ok s).wire = s.wire ∨ WritesFrame s (sendStep ok s) := by
  obtain ⟨-, e⟩ | ⟨-, -, e⟩ | ⟨tx, live, -, e⟩ | ⟨-, -, -, e⟩ := sendStep_cases ok s <;> rw [e]
  · exact .inl rfl
  · exact .inl rfl
  · exact .inr ⟨tx, live, rfl, rfl, rfl⟩
  · exact .inl s.raiseTransportFailure_wire

/-- A turn writes nothing to the channel, or the latched frame from X_TX without cancellation. -/
theorem TurnEffect.wire_cases {t : Turn} {s u : State} (e : TurnEffect t s u) : u.wire = s.wire ∨ WritesFrame s u := by
  cases e with
  | exec x i _ _ e => exact .inl e.wire_eq
  | garbage raw _ e => exact .inl (receiveStep_wire e)
  | send ok => exact sendStep_wire_cases ok s
  | readFail => exact .inl (readFailStep_wire s)
  | scheduler _ e => exact .inl e.wire_eq
  | resume i rest _ _ e => exact .inl e.wire_eq
  | resumeNone => exact .inl rfl
  | consume => exact .inl s.consumeFact_wire
  | cancelIn => exact .inl s.raiseCancel_wire
  | reset => exact .inl s.pullReset_wire

/-- Settles O30: a step is a turn's effect on the state without the turn, whose exchange registers are the old ones. -/
theorem channelWritesOnlyFromTx : Obligations.ChannelWritesOnlyFromTx := by
  intro s t h
  simpa only [WritesFrame, takeTurn_wire, takeTurn_xstate, takeTurn_cancel, takeTurn_xframe] using (step_effect h).wire_cases

/-- Under cancellation no turn writes to the channel, and only reset ends it (R28, R179). -/
theorem TurnEffect.silent_of_cancel {t : Turn} {s u : State} (e : TurnEffect t s u) (cancelled : s.cancel = true)
    (running : t ≠ .reset) : u.wire = s.wire ∧ u.cancel = true := by
  constructor
  · obtain silent | ⟨-, live, -⟩ := e.wire_cases
    · exact silent
    · simp [cancelled] at live
  · obtain ⟨same, -⟩ | ⟨high, -⟩ | ⟨-, high, -⟩ | ⟨reset, -⟩ := e.cancellation
    · exact same.trans cancelled
    · exact high
    · exact high
    · exact absurd reset running

/-- Settles O35, by induction on the turns. -/
theorem noChannelWriteAfterCancellation : Obligations.NoChannelWriteAfterCancellation := by
  intro ts
  induction ts with
  | nil => intro s t cancelled _ run; cases run; exact ⟨rfl, cancelled⟩
  | cons x xs ih =>
    intro s t cancelled running run
    obtain ⟨first, later⟩ := List.forall_mem_cons.mp running
    obtain ⟨u, next, rest⟩ := runTurns_cons_next run
    obtain ⟨wire, still⟩ := (turn_effect next).silent_of_cancel cancelled first
    obtain ⟨restWire, high⟩ := ih u t still later rest
    exact ⟨restWire.trans wire, high⟩

end Sys2Proof.Machine
end

section
/-! An exchange in flight (R174, R177, R179): from X_TX and X_RX no turn but reset touches the request or
leads back to X_IDLE. -/

namespace Sys2Proof.Machine

/-- The request is kept and the exchange is not back in X_IDLE. -/
def KeepsRequest (s t : State) : Prop :=
  t.xframe = s.xframe ∧ t.xhdr = s.xhdr ∧ t.xcnt = s.xcnt ∧ t.xstate ≠ .idle

theorem ExecEffect.keepsRequest {i : Instr} {s t : State} (e : ExecEffect i s t) (busy : s.xstate ≠ .idle) :
    KeepsRequest s t := by
  cases e with
  | accept f h n _ idle => exact absurd idle busy
  | received raw ws => exact ⟨rfl, rfl, rfl, nofun⟩
  | retry => exact ⟨rfl, rfl, rfl, nofun⟩
  | _ => exact ⟨rfl, rfl, rfl, busy⟩

/-- While the exchange runs the scheduler has no step (R190). -/
theorem SchedulerEffect.eq_or_not_in_flight {s t : State} (e : SchedulerEffect s t) :
    t = s ∨ (s.xstate ≠ .tx ∧ s.xstate ≠ .rx) := by
  cases e with
  | none => exact .inl rfl
  | _ => exact .inr (by simp [*])

theorem receiveStep_keepsRequest {raw : List Byte} {s t : State} (h : receiveStep raw s = .next t)
    (busy : s.xstate ≠ .idle) : KeepsRequest s t := by
  obtain ⟨-, rfl⟩ | ⟨-, ws, -, rfl⟩ | ⟨-, rfl⟩ := receiveStep_cases h
  · exact ⟨rfl, rfl, rfl, busy⟩
  · exact ⟨rfl, rfl, rfl, nofun⟩
  · exact ⟨rfl, rfl, rfl, nofun⟩

theorem sendStep_keepsRequest (ok : Bool) {s : State} (busy : s.xstate ≠ .idle) : KeepsRequest s (sendStep ok s) := by
  obtain ⟨-, e⟩ | ⟨-, -, e⟩ | ⟨-, -, -, e⟩ | ⟨-, -, -, e⟩ := sendStep_cases ok s <;> rw [e]
  · exact ⟨rfl, rfl, rfl, busy⟩
  · exact ⟨rfl, rfl, rfl, nofun⟩
  · exact ⟨rfl, rfl, rfl, nofun⟩
  · exact ⟨rfl, rfl, rfl, nofun⟩

theorem readFailStep_keepsRequest {s : State} (busy : s.xstate ≠ .idle) : KeepsRequest s (readFailStep s) := by
  obtain ⟨-, e⟩ | ⟨-, e⟩ := readFailStep_cases s <;> rw [e]
  · exact ⟨rfl, rfl, rfl, busy⟩
  · exact ⟨rfl, rfl, rfl, nofun⟩

theorem TurnEffect.keepsRequest {t : Turn} {s u : State} (e : TurnEffect t s u) (running : t ≠ .reset)
    (flight : s.xstate = .tx ∨ s.xstate = .rx) : KeepsRequest s u := by
  have busy : s.xstate ≠ .idle := by obtain x | x := flight <;> simp [x]
  cases e with
  | exec x i _ _ e => exact e.keepsRequest busy
  | garbage raw _ e => exact receiveStep_keepsRequest e busy
  | send ok => exact sendStep_keepsRequest ok busy
  | readFail => exact readFailStep_keepsRequest busy
  | scheduler _ e =>
    obtain rfl | ⟨notTx, notRx⟩ := e.eq_or_not_in_flight
    · exact ⟨rfl, rfl, rfl, busy⟩
    · exact absurd flight (not_or.mpr ⟨notTx, notRx⟩)
  | resume i rest _ _ e => exact e.keepsRequest (s := s.withWaiting rest) busy
  | resumeNone => exact ⟨rfl, rfl, rfl, busy⟩
  | consume => exact ⟨rfl, rfl, rfl, busy⟩
  | cancelIn => exact ⟨rfl, rfl, rfl, busy⟩
  | reset is => exact absurd is running

/-- Settles O31: a step is a turn's effect on the state without the turn, whose exchange registers are the old ones. -/
theorem exchangeInFlightKeepsItsRequest : Obligations.ExchangeInFlightKeepsItsRequest := by
  intro s t h running flight
  have kept := (step_effect h).keepsRequest running (by simpa only [takeTurn_xstate] using flight)
  simpa only [KeepsRequest, takeTurn_xframe, takeTurn_xhdr, takeTurn_xcnt] using kept

end Sys2Proof.Machine
end

section
/-! The operations on the port that use the channel (R170, R173, D43; log 6, log 9): accepted while it is free, waiting while it
is busy, and response frames judged in X_RX. -/

namespace Sys2Proof.Machine

/-! ### EXCHANGE in X_IDLE (R173) -/

section
variable {frame hdr : List Byte} {count : Word} {s : State}

theorem exec_exchange_of_idle (idle : s.xstate = .idle) :
    exec (.exchange frame hdr count) s = acceptExchange frame hdr count (s.withResult .started) := if_pos idle

theorem exec_exchange_of_bad_operands (idle : s.xstate = .idle)
    (bad : count.toNat > s.cfg.maxCount.toNat ∨ hdr.length ≠ 8) :
    exec (.exchange frame hdr count) s = .refused .badOperand := by
  rw [exec_exchange_of_idle idle, acceptExchange, State.withResult_cfg, respOperandsOk_eq_false_iff.mpr bad]
  rfl

theorem exec_exchange_of_operands (idle : s.xstate = .idle) (fits : count ≤ s.cfg.maxCount) (header : hdr.length = 8) :
    exec (.exchange frame hdr count) s =
      .next ((s.withResult .started).accepted (latchFrame s.cfg frame) hdr count) :=
  (exec_exchange_of_idle idle).trans (acceptExchange_next_iff.mpr ⟨⟨fits, header⟩, rfl⟩)

end

/-- Settles O25: what is latched is the frame itself within the bound of R20, and something within it in any case. -/
theorem exchangeIsAcceptedWhenIdle : Obligations.ExchangeIsAcceptedWhenIdle :=
  fun frame _ _ s idle => ⟨exec_exchange_of_bad_operands idle, fun fits header =>
    ⟨latchFrame s.cfg frame, latchFrame_of_length, latchFrame_length_le s.cfg frame,
      exec_exchange_of_operands idle fits header⟩⟩

/-! ### Response frames (R73, R74) -/

/-- Settles O28: the bytes of the frame go to the X_RX step, which judges them by DEC_RESP. -/
theorem responseFrameIsJudgedInRx : Obligations.ResponseFrameIsJudgedInRx := by
  intro dev reg count crc data s judge body
  have judged (rx : s.xstate = .rx) (header : s.xhdr.length = 8) (fits : s.xcnt ≤ s.cfg.maxCount) (raw : List Byte) :
      receiveStep raw s = judge raw := by
    simp only [judge]
    cases verdict : parseResponse raw s.xhdr s.xcnt with
    | ok ws => exact receiveStep_ok rx (decodeResp_ok_iff.mpr ⟨fits, header, verdict⟩)
    | _ => exact receiveStep_retry rx (decodeResp_ok_iff.mpr ⟨fits, header, verdict⟩) nofun
  exact ⟨fun rx header fits => ⟨judged rx header fits _, judged rx header fits _⟩,
    fun elsewhere => ⟨receiveStep_of_not_rx elsewhere _, receiveStep_of_not_rx elsewhere _⟩⟩

/-! ### Waiting issuers (R170, R57, D43; log 9) -/

/-- RSM_WORD as an equation: taken when there is room for its fact, held when there is none (R152, R57). -/
theorem exec_rsmWord (a w : Word) (s : State) :
    exec (.rsmWord a w) s =
      if s.hasRoom (reassemble s.cfg s.pend a w).facts.length = true then
        .next { s with
          pend := (reassemble s.cfg s.pend a w).pend
          out := s.out ++ (reassemble s.cfg s.pend a w).facts
          result := .reassembled (reassemble s.cfg s.pend a w).outcome }
      else .next (s.holdOp (.rsmWord a w)) := rfl

theorem turnStep_resume_nil {s : State} (nobody : s.waiting = []) : turnStep .resume s = .next s := by
  simp only [turnStep, resumeStep, nobody]

theorem turnStep_resume_cons {i : Instr} {rest : List Instr} {s : State} (first : s.waiting = i :: rest) :
    turnStep .resume s = exec i (s.withWaiting rest) := by
  simp only [turnStep, resumeStep, first]

theorem exec_reqRead_of_operands (dev : Byte) (reg : Word) {count : Word} (crc : Word) {s : State} (idle : s.xstate = .idle)
    (fits : count ≤ s.cfg.maxCount) :
    exec (.reqRead dev reg count crc) s =
      .next ((s.withResult .started).accepted (frameBytes dev Config.fcRead reg count [] crc)
        (frameBody dev Config.fcRead reg count []) count) := by
  rw [exec_reqRead_of_idle dev reg count crc idle, if_neg (Nat.not_lt.mpr fits)]

theorem exec_reqWrite_of_operands (dev : Byte) (reg : Word) {count : Word} {data : List Word} (crc : Word) {s : State}
    (idle : s.xstate = .idle) (fits : count ≤ s.cfg.maxCount) (length : data.length = count.toNat)
    (ack : s.cfg.writeAckCount ≤ s.cfg.maxCount) :
    exec (.reqWrite dev reg count data crc) s =
      .next ((s.withResult .started).accepted (frameBytes dev Config.fcWrite reg count data crc)
        (frameBody dev Config.fcWrite reg count []) s.cfg.writeAckCount) := by
  rw [exec_reqWrite_of_idle dev reg count data crc idle, if_neg (Nat.not_lt.mpr fits), if_neg (not_not.mpr length),
    if_neg (Nat.not_lt.mpr ack)]

/-- The three operations that start an exchange hold while one is not back in X_IDLE (R170). -/
theorem exec_of_busy {i : Instr} {s : State} (busy : s.xstate ≠ .idle)
    (starts : (∃ f h n, i = .exchange f h n) ∨ (∃ d r n c, i = .reqRead d r n c) ∨
      (∃ d r n ws c, i = .reqWrite d r n ws c)) : exec i s = .next (s.holdOp i) := by
  obtain ⟨f, h, n, rfl⟩ | ⟨d, r, n, c, rfl⟩ | ⟨d, r, n, ws, c, rfl⟩ := starts
  · exact if_neg busy
  · exact if_neg busy
  · exact if_neg busy

/-- Settles O26: the operation that resumes is executed on the state without it, where its own equation applies. -/
theorem exchangeWaitsWhileBusy : Obligations.ExchangeWaitsWhileBusy := by
  unfold Obligations.ExchangeWaitsWhileBusy
  intro starts
  refine ⟨fun i s busy start => exec_of_busy busy start, fun s => turnStep_resume_nil, fun i rest s first => ?_⟩
  have resumed := turnStep_resume_cons first
  refine ⟨resumed, fun busy start => resumed.trans (exec_of_busy busy start), ?_, ?_, ?_, ?_⟩
  · rintro frame hdr count rfl idle fits header
    exact ⟨latchFrame s.cfg frame, latchFrame_of_length, latchFrame_length_le s.cfg frame,
      resumed.trans (exec_exchange_of_operands idle fits header)⟩
  · rintro dev reg count crc rfl idle fits
    exact resumed.trans (exec_reqRead_of_operands (s := s.withWaiting rest) dev reg crc idle fits)
  · rintro dev reg count data crc rfl idle fits length ack
    exact resumed.trans (exec_reqWrite_of_operands (s := s.withWaiting rest) dev reg crc idle fits length ack)
  · rintro a w rfl
    exact resumed.trans (exec_rsmWord a w (s.withWaiting rest))

end Sys2Proof.Machine
end

section
/-! The PendingCommand registers' ports (R197 to R202): which topics are routed, which payloads are valid, and what CMD_POST,
CMD_TAKE and CMD_RETIRE do. -/

namespace Sys2Proof.Machine

/-! ### Topics (R202) -/

/-- What follows `DEVICE_ID` in the command topic of a kind (R202). -/
def topicSuffix : CmdKind → String
  | .em => "/EMS_EM/turn"
  | .bypass => "/EMS_Bypass/turn"
  | .pl => "/EMS_Power_Limit/set"

/-- The command topic of a kind (R202). -/
def commandTopic (c : Config) (k : CmdKind) : String := "solar/ems/" ++ c.deviceId ++ topicSuffix k

theorem commandTopic_inj {c : Config} {j k : CmdKind} : commandTopic c j = commandTopic c k ↔ j = k := by
  rw [commandTopic, commandTopic, String.append_right_inj]
  cases j <;> cases k <;> decide

theorem route_commandTopic (c : Config) (k : CmdKind) : route c (commandTopic c k) = some k := by
  have others : ∀ j, commandTopic c k = commandTopic c j ↔ k = j := fun j => commandTopic_inj
  change (if commandTopic c k = commandTopic c .em then some CmdKind.em
    else if commandTopic c k = commandTopic c .bypass then some .bypass
    else if commandTopic c k = commandTopic c .pl then some .pl else none) = some k
  simp only [others]
  cases k <;> rfl

theorem route_eq_some_iff {c : Config} {topic : String} {k : CmdKind} :
    route c topic = some k ↔ topic = commandTopic c k := by
  constructor
  · intro routed
    unfold route at routed
    split at routed
    · next is => cases routed; exact is
    · split at routed
      · next is => cases routed; exact is
      · split at routed
        · next is => cases routed; exact is
        · cases routed
  · rintro rfl
    exact route_commandTopic c k

/-- Settles O46: a topic is routed to a kind exactly when it is that kind's topic. -/
theorem onlyTheThreeTopicsAreRouted : Obligations.OnlyTheThreeTopicsAreRouted :=
  fun _ _ => ⟨route_eq_some_iff, route_eq_some_iff, route_eq_some_iff⟩

/-! ### Payloads (R200, R201) -/

/-- Settles O47: both kinds are validated as switches. -/
theorem switchPayloadsAreLiteral : Obligations.SwitchPayloadsAreLiteral := by
  rintro c k payload (rfl | rfl)
  · rfl
  · rfl

/-- The byte of a decimal digit (R201). -/
def digitByte (d : Fin 10) : Byte := BitVec.ofNat 8 (0x30 + d.val)

theorem digitBytes_eq_map (ds : List (Fin 10)) : digitBytes ds = ds.map digitByte := rfl

/-- A digit's byte carries the digit above `0x30`. -/
theorem digitByte_toNat (d : Fin 10) : (digitByte d).toNat = 0x30 + d.val := by
  rw [digitByte, BitVec.toNat_ofNat, Nat.mod_eq_of_lt (by omega)]

theorem isDigit_iff {b : Byte} : isDigit b = true ↔ b ∈ Set.range digitByte := by
  have range : isDigit b = true ↔ 0x30 ≤ b.toNat ∧ b.toNat ≤ 0x39 := by simp [isDigit]
  rw [range]
  constructor
  · rintro ⟨low, high⟩
    refine ⟨⟨b.toNat - 0x30, by omega⟩, BitVec.eq_of_toNat_eq ?_⟩
    rw [digitByte_toNat]
    exact Nat.add_sub_cancel' low
  · rintro ⟨d, rfl⟩
    rw [digitByte_toNat]
    omega

/-- The strings of ASCII digits are the bytes of lists of digits. -/
theorem all_isDigit_iff {payload : List Byte} : payload.all isDigit = true ↔ ∃ ds, payload = digitBytes ds := by
  simp only [List.all_eq_true, isDigit_iff, digitBytes_eq_map, eq_comm (a := payload)]
  exact (Set.ext_iff.mp (Set.range_list_map digitByte) payload).symm

theorem decimal_append_digit (bs : List Byte) (d : Fin 10) : decimal (bs ++ [digitByte d]) = 10 * decimal bs + d.val := by
  simp [decimal, digitByte_toNat]

/-- The model's fold from the left is the positional value, whose least digit is the last byte. -/
theorem decimal_digitBytes (ds : List (Fin 10)) :
    decimal (digitBytes ds) = Nat.ofDigits 10 (ds.reverse.map Fin.val) := by
  induction ds using List.reverseRecOn with
  | nil => rfl
  | append_singleton ds d ih =>
    rw [digitBytes_eq_map, List.map_append, ← digitBytes_eq_map, List.map_singleton, decimal_append_digit, ih,
      List.reverse_concat, List.map_cons, Nat.ofDigits_cons, Nat.add_comm]

theorem validatePowerLimit_digitBytes {ds : List (Fin 10)} (nonempty : ds ≠ []) :
    validatePowerLimit (digitBytes ds) =
      if decimal (digitBytes ds) ≤ 1600 then some (BitVec.ofNat 16 (decimal (digitBytes ds))) else none := by
  have bytes : digitBytes ds ≠ [] := by simpa [digitBytes] using nonempty
  have digits : (digitBytes ds).all isDigit = true := all_isDigit_iff.mpr ⟨ds, rfl⟩
  simp only [validatePowerLimit, bytes, digits, Config.plMin, Config.plMax, Nat.zero_le, ne_eq, not_false_eq_true,
    true_and]

theorem validatePowerLimit_eq_none {payload : List Byte} (other : ∀ ds, ds ≠ [] → payload ≠ digitBytes ds) :
    validatePowerLimit payload = none := by
  refine if_neg ?_
  rintro ⟨nonempty, digits, -⟩
  obtain ⟨ds, rfl⟩ := all_isDigit_iff.mp digits
  exact other ds (by rintro rfl; exact nonempty rfl) rfl

/-- Settles O48: a valid payload is a string of digits, and its value is the positional one. -/
theorem powerLimitAcceptsDecimalsUpTo1600 : Obligations.PowerLimitAcceptsDecimalsUpTo1600 := by
  refine fun c payload => ⟨?_, validatePowerLimit_eq_none⟩
  rintro ds nonempty rfl
  rw [← decimal_digitBytes]
  exact validatePowerLimit_digitBytes nonempty

/-! ### CMD_POST (R197) -/

theorem exec_cmdPost_of_valid {topic : String} {payload : List Byte} {s : State} {k : CmdKind} {v : Word}
    (routed : route s.cfg topic = some k) (valid : validate s.cfg k payload = some v) :
    exec (.cmdPost topic payload) s = .next ((s.postCommand k v).withResult (.posted .accepted)) := by
  simp only [exec, execCmdPost, routed, valid]

theorem exec_cmdPost_of_invalid {topic : String} {payload : List Byte} {s : State}
    (invalid : ∀ k, route s.cfg topic = some k → validate s.cfg k payload = none) :
    exec (.cmdPost topic payload) s = .next (s.withResult (.posted .rejected)) := by
  cases routed : route s.cfg topic with
  | none => simp only [exec, execCmdPost, routed]
  | some k => simp only [exec, execCmdPost, routed, invalid k routed]

/-- Settles O45: the topic of a kind is routed to it, and an accepted post writes that kind's register only. -/
theorem cmdPostAcceptsOrRejects : Obligations.CmdPostAcceptsOrRejects := by
  refine fun topic payload s => ⟨fun k v named valid => ?_, exec_cmdPost_of_invalid⟩
  have routed : route s.cfg topic = some k := route_eq_some_iff.mpr (named.trans (by cases k <;> rfl))
  exact ⟨_, exec_cmdPost_of_valid routed valid, CmdRegs.get_set_self .., fun j other => CmdRegs.get_set_ne _ _ _ _ other,
    rfl, rfl⟩

/-! ### CMD_TAKE (R198) and CMD_RETIRE (R199) -/

/-- Settles O49: the answer is the first dirty command. -/
theorem cmdTakeReadsByPriority : Obligations.CmdTakeReadsByPriority := fun _ => rfl

theorem PendingCmd.retired_of_gen {p : PendingCmd} {g : Nat} (same : p.gen = g) : p.retired g = ⟨false, p.value, p.gen⟩ :=
  if_pos same

theorem PendingCmd.retired_of_other_gen {p : PendingCmd} {g : Nat} (other : p.gen ≠ g) : p.retired g = p := if_neg other

theorem exec_cmdRetire (k : CmdKind) (g : Nat) (s : State) :
    exec (.cmdRetire k g) s =
      .next ((s.retireCommand k g).withResult (.retired (if (s.pcmd.get k).gen = g then .cleared else .kept))) := rfl

/-- Settles O50: the register of the kind is the retired one, the others are as they were. -/
theorem cmdRetireComparesTheGeneration : Obligations.CmdRetireComparesTheGeneration := by
  refine fun k g s => ⟨_, exec_cmdRetire k g s, ?_, fun j other => CmdRegs.get_set_ne _ _ _ _ other, rfl⟩
  split
  · next same => exact ⟨(CmdRegs.get_set_self ..).trans (PendingCmd.retired_of_gen same), rfl⟩
  · next changed => exact ⟨(CmdRegs.get_set_self ..).trans (PendingCmd.retired_of_other_gen changed), rfl⟩

end Sys2Proof.Machine
end

section
/-! The scheduler's steps (R190 to R196): what it issues in X_IDLE, when it waits, how each state completes, and that cancellation
halts it for good. -/

namespace Sys2Proof.Machine

/-- The scheduler is in a state that reads the range `r` (R191). -/
def Reads (s : State) (r : Range) : Prop :=
  (s.sstate = .telem ∧ r = s.cfg.telem) ∨ (s.sstate = .svcConfirm ∧ r = s.cfg.confirm) ∨
    (s.sstate = .diag ∧ r = s.cfg.diag.get s.rr)

section
variable {s : State} {r : Range} {v : Service}

theorem Reads.running (reads : Reads s r) : s.sstate ≠ .halted := by
  obtain ⟨at_, -⟩ | ⟨at_, -⟩ | ⟨at_, -⟩ := reads <;> simp [at_]

/-! ### The issue step (R191) -/

theorem schedulerStep_of_idle (idle : s.xstate = .idle) (running : s.sstate ≠ .halted) : schedulerStep s = issueStep s := by
  simp [schedulerStep, idle, running]

theorem issueStep_of_cancel (cancelled : s.cancel = true) :
    issueStep s = .next { s with sstate := .halted, svc := none } := if_pos cancelled

theorem issueStep_of_reads (live : s.cancel = false) (reads : Reads s r) : issueStep s = issueRead r s := by
  obtain ⟨at_, rfl⟩ | ⟨at_, rfl⟩ | ⟨at_, rfl⟩ := reads <;> simp [issueStep, live, at_]

theorem issueStep_of_svcWrite (live : s.cancel = false) (at_ : s.sstate = .svcWrite) (service : s.svc = some v) :
    issueStep s = issueWrite v s := by
  simp [issueStep, live, at_, service]

theorem State.accepted_of_live (live : s.cancel = false) (f h : List Byte) (n : Word) :
    s.accepted f h n = { s with xframe := f, xhdr := h, xcnt := n, xwords := [], xstate := .tx } := by
  simp [State.accepted, live]

/-- Settles O36: the frames of `issueRead` and `issueWrite` are the header of R110, the words, and their CRC. -/
theorem issueStepStartsTheStatesExchange : Obligations.IssueStepStartsTheStatesExchange := by
  intro s idle running
  have issues : turnStep .scheduler s = issueStep s := schedulerStep_of_idle idle running
  refine ⟨fun cancelled => issues.trans (issueStep_of_cancel cancelled), fun live => ⟨?_, ?_⟩⟩
  · intro r fits reads h
    rw [issues, issueStep_of_reads live reads, issueRead_of_count fits, State.accepted_of_live live]
    rfl
  · intro v at_ service one ack g h b
    have register : g = cmdReg s.cfg v.kind := by cases kind : v.kind <;> simp [g, kind, cmdReg]
    rw [issues, issueStep_of_svcWrite live at_ service, issueWrite_of_count one ack, State.accepted_of_live live, ← register]
    rfl

/-! ### Waiting (R190, R57) -/

theorem schedulerStep_of_halted (halted : s.sstate = .halted) : schedulerStep s = .next s := if_pos halted

theorem schedulerStep_of_in_flight (flight : s.xstate = .tx ∨ s.xstate = .rx) : schedulerStep s = .next s := by
  obtain x | x := flight <;> simp [schedulerStep, x]

theorem processStep_of_full {reg : Word} {after : State → State}
    (full : s.hasRoom (responseFacts s.cfg reg s.xwords).length = false) : processStep reg after s = s := by
  simp [processStep, full]

theorem completeOk_of_full (reads : Reads s r) (full : s.hasRoom (responseFacts s.cfg r.start s.xwords).length = false) :
    completeOk s = s := by
  obtain ⟨at_, rfl⟩ | ⟨at_, rfl⟩ | ⟨at_, rfl⟩ := reads <;> simp only [completeOk, at_, processStep_of_full full]

/-- Settles O37: the turn finds no step to take, or a complete step without room. -/
theorem schedulerWaitsForTheExchangeAndForRoom : Obligations.SchedulerWaitsForTheExchangeAndForRoom := by
  refine fun s => ⟨?_, fun r ok reads full => ?_⟩
  · rintro (tx | rx | halted)
    · exact schedulerStep_of_in_flight (.inl tx)
    · exact schedulerStep_of_in_flight (.inr rx)
    · exact schedulerStep_of_halted halted
  · exact (schedulerStep_of_ok ok (Reads.running reads)).trans (congrArg _ (completeOk_of_full reads full))

/-! ### The complete steps on X_OK (R192 to R195) -/

/-- The response to the range `r` is processed: the outcome is consumed, the facts are emitted and the accumulator is empty
(R154, R178). -/
def State.processed (s : State) (r : Range) : State := s.consumeOutcome.processResp r.start s.xwords

theorem processStep_of_room {after : State → State} (room : s.hasRoom (responseFacts s.cfg r.start s.xwords).length = true) :
    processStep r.start after s = after (s.processed r) := if_pos room

theorem completeOk_telem_take (at_ : s.sstate = .telem)
    (room : s.hasRoom (responseFacts s.cfg s.cfg.telem.start s.xwords).length = true) (take : firstDirty s.pcmd = some v) :
    completeOk s = { s.processed s.cfg.telem with svc := some v, sstate := .svcWrite } := by
  have take' : firstDirty (s.processed s.cfg.telem).pcmd = some v := take
  simp only [completeOk, at_, processStep_of_room room, afterTelem, take']

theorem completeOk_telem_none (at_ : s.sstate = .telem)
    (room : s.hasRoom (responseFacts s.cfg s.cfg.telem.start s.xwords).length = true) (clean : firstDirty s.pcmd = none) :
    completeOk s = { s.processed s.cfg.telem with sstate := .diag } := by
  have clean' : firstDirty (s.processed s.cfg.telem).pcmd = none := clean
  simp only [completeOk, at_, processStep_of_room room, afterTelem, clean']

theorem completeOk_svcWrite (at_ : s.sstate = .svcWrite) : completeOk s = { s.consumeOutcome with sstate := .svcConfirm } := by
  simp only [completeOk, at_]

theorem completeOk_svcConfirm (at_ : s.sstate = .svcConfirm)
    (room : s.hasRoom (responseFacts s.cfg s.cfg.confirm.start s.xwords).length = true) (service : s.svc = some v) :
    completeOk s = { (s.processed s.cfg.confirm).retireCommand v.kind v.gen with svc := none, sstate := .diag } := by
  have service' : (s.processed s.cfg.confirm).svc = some v := service
  simp only [completeOk, at_, processStep_of_room room, afterConfirm, service']

theorem completeOk_diag (at_ : s.sstate = .diag)
    (room : s.hasRoom (responseFacts s.cfg (s.cfg.diag.get s.rr).start s.xwords).length = true) :
    completeOk s = { s.processed (s.cfg.diag.get s.rr) with rr := nextRr s.rr, sstate := .telem } := by
  simp only [completeOk, at_]
  exact processStep_of_room room

theorem nextRr_val (i : Fin 5) : (nextRr i).val = (i.val + 1) % 5 := Fin.val_add i 1

/-- The complete step in a state of known name. -/
theorem turnStep_scheduler_of_ok {x : SState} {t : State} (at_ : s.sstate = x) (ok : s.xstate = .ok)
    (completes : completeOk s = t) (running : x ≠ .halted := by decide) : turnStep .scheduler s = .next t :=
  (schedulerStep_of_ok ok (at_.trans_ne running)).trans (congrArg _ completes)

end

/-- Settles O38, by the cases of CMD_TAKE. -/
theorem telemetryCompletionTakesACommand : Obligations.TelemetryCompletionTakesACommand := by
  intro s at_ ok fs room
  cases take : firstDirty s.pcmd with
  | some v => exact turnStep_scheduler_of_ok at_ ok (completeOk_telem_take at_ room take)
  | none => exact turnStep_scheduler_of_ok at_ ok (completeOk_telem_none at_ room take)

/-- Settles O39: the write has no facts that would need room. -/
theorem writeCompletionLeadsToConfirmation : Obligations.WriteCompletionLeadsToConfirmation :=
  fun _ at_ ok => turnStep_scheduler_of_ok at_ ok (completeOk_svcWrite at_)

/-- A retire changes no value and no generation, of its own kind or another (R199). -/
theorem CmdRegs.value_gen_of_set_retired (r : CmdRegs) (j k : CmdKind) (g : Nat) :
    ((r.set j ((r.get j).retired g)).get k).value = (r.get k).value ∧
      ((r.set j ((r.get j).retired g)).get k).gen = (r.get k).gen := by
  by_cases retired : k = j
  · subst retired
    simp
  · simp [CmdRegs.get_set_ne _ _ _ _ retired]

/-- Settles O40: the register of the serviced kind is the retired one. -/
theorem confirmationCompletionRetiresTheCommand : Obligations.ConfirmationCompletionRetiresTheCommand := by
  intro s v at_ ok service fs room
  have flag := (congrArg PendingCmd.dirty (CmdRegs.get_set_self s.pcmd v.kind _)).trans
    (PendingCmd.retired_dirty (s.pcmd.get v.kind) v.gen)
  exact ⟨_, turnStep_scheduler_of_ok at_ ok (completeOk_svcConfirm at_ room service), rfl, flag,
    fun k => CmdRegs.value_gen_of_set_retired s.pcmd v.kind k v.gen, fun k other => CmdRegs.get_set_ne _ _ _ _ other⟩

/-- Settles O41: the facts are those of the range that the old counter chooses. -/
theorem diagnosticCompletionAdvancesTheCounter : Obligations.DiagnosticCompletionAdvancesTheCounter :=
  fun s at_ ok room => ⟨_, turnStep_scheduler_of_ok at_ ok (completeOk_diag at_ room), nextRr_val s.rr, rfl⟩

/-! ### S_HALTED (R196, R228) -/

/-- The scheduler's own registers are the same in both states. -/
def SameScheduler (s t : State) : Prop := t.sstate = s.sstate ∧ t.svc = s.svc ∧ t.rr = s.rr

theorem ExecEffect.sameScheduler {i : Instr} {s t : State} (e : ExecEffect i s t) : SameScheduler s t := by
  cases e <;> exact ⟨rfl, rfl, rfl⟩

theorem receiveStep_sameScheduler {raw : List Byte} {s t : State} (h : receiveStep raw s = .next t) : SameScheduler s t := by
  obtain ⟨-, rfl⟩ | ⟨-, ws, -, rfl⟩ | ⟨-, rfl⟩ := receiveStep_cases h <;> exact ⟨rfl, rfl, rfl⟩

theorem sendStep_sameScheduler (ok : Bool) (s : State) : SameScheduler s (sendStep ok s) := by
  obtain ⟨-, e⟩ | ⟨-, -, e⟩ | ⟨-, -, -, e⟩ | ⟨-, -, -, e⟩ := sendStep_cases ok s <;> rw [e] <;> exact ⟨rfl, rfl, rfl⟩

theorem readFailStep_sameScheduler (s : State) : SameScheduler s (readFailStep s) := by
  obtain ⟨-, e⟩ | ⟨-, e⟩ := readFailStep_cases s <;> rw [e] <;> exact ⟨rfl, rfl, rfl⟩

/-- In S_HALTED nothing is latched, so even a second halt would change nothing; the other effects belong to running states. -/
theorem SchedulerEffect.sameScheduler_of_halted {s t : State} (e : SchedulerEffect s t) (halted : s.sstate = .halted)
    (empty : s.svc = Option.none) : SameScheduler s t := by
  cases e with
  | none => exact ⟨rfl, rfl, rfl⟩
  | halt => exact ⟨halted.symm, empty.symm, rfl⟩
  | issue _ _ _ _ _ running => exact absurd halted running
  | cancelled running => exact absurd halted running
  | _ => simp_all

/-- From S_HALTED no turn but reset touches the scheduler's registers. -/
theorem TurnEffect.sameScheduler_of_halted {t : Turn} {s u : State} (e : TurnEffect t s u) (halted : s.sstate = .halted)
    (empty : s.svc = none) (running : t ≠ .reset) : SameScheduler s u := by
  cases e with
  | exec x i _ _ e => exact e.sameScheduler
  | garbage raw _ e => exact receiveStep_sameScheduler e
  | send ok => exact sendStep_sameScheduler ok s
  | readFail => exact readFailStep_sameScheduler s
  | scheduler _ e => exact e.sameScheduler_of_halted halted empty
  | resume i rest _ _ e => exact e.sameScheduler
  | reset is => exact absurd is running
  | _ => exact ⟨rfl, rfl, rfl⟩

/-- Settles O42: in S_HALTED the invariant gives cancellation, under which nothing is written, and an empty `svc`. -/
theorem cancellationHaltsUntilReset : Obligations.CancellationHaltsUntilReset := by
  refine ⟨fun s running cancelled => schedulerStep_of_cancelled cancelled running, fun s t inv halted next running => ?_⟩
  have effect := step_effect next
  have cancelled : (takeTurn s).2.cancel = true := (takeTurn_cancel s).trans (inv.halted halted)
  have empty : (takeTurn s).2.svc = none :=
    (takeTurn_svc s).trans (inv.svc_eq_none (halted.trans_ne nofun) (halted.trans_ne nofun))
  obtain ⟨wire, -⟩ := effect.silent_of_cancel cancelled running
  obtain ⟨sstate, svc, rr⟩ := effect.sameScheduler_of_halted ((takeTurn_sstate s).trans halted) empty running
  exact ⟨by rw [sstate, takeTurn_sstate, halted], by rw [wire, takeTurn_wire], by rw [svc, takeTurn_svc],
    by rw [rr, takeTurn_rr]⟩

end Sys2Proof.Machine
end

section
/-! The cycle (R203, R204): four turns carry an exchange from its issue to its complete step, and a cycle is two of these, or four
with a command. -/

namespace Sys2Proof.Machine

/-! ### One exchange -/

/-- Turns run one list after the other. -/
theorem runTurns_append {ts us : List Turn} {s t : State} (first : runTurns ts s = .next t) :
    runTurns (ts ++ us) s = runTurns us t := by
  induction ts generalizing s with
  | nil => cases first; rfl
  | cons x ts ih =>
    obtain ⟨u, next, rest⟩ := runTurns_cons_next first
    rw [List.cons_append, runTurns_cons_of_next next, ih rest]

/-- The turns of one exchange whose first attempt is answered: issue, write, read, complete. -/
def exchangeTurns (f : List Byte) (ws : List Word) : List Turn :=
  [.scheduler, .chanWrite true, .input (.response (responseOf (f.take 8) ws)), .scheduler]

/-- The exchange of the frame `f` has ended with the words `ws` (R174). -/
def State.answered (s : State) (f : List Byte) (n : Word) (ws : List Word) : State :=
  { s with xframe := f, xhdr := f.take 8, xcnt := n, xwords := ws, wire := s.wire ++ [f], xstate := .ok }

/-- The issue step starts an exchange of the frame `f` that expects `n` words, with operands in their types (R191). -/
structure Issues (s : State) (f : List Byte) (n : Word) : Prop where
  live : s.cancel = false
  idle : s.xstate = .idle
  running : s.sstate ≠ .halted
  issue : issueStep s = .next (s.accepted f (f.take 8) n)
  count : n ≤ s.cfg.maxCount
  header : (f.take 8).length = 8

section
variable {s : State} {f : List Byte} {n : Word} {ws : List Word}

theorem Issues.of_reads {r : Range} (live : s.cancel = false) (idle : s.xstate = .idle) (reads : Reads s r)
    (built : readFrame s.cfg r.start r.count = .ok f) : Issues s f r.count := by
  obtain ⟨fits, rfl⟩ := readFrame_ok_iff.mp built
  exact ⟨live, idle, reads.running, (issueStep_of_reads live reads).trans (issueRead_of_count fits), fits, rfl⟩

theorem Issues.of_svcWrite {v : Service} (live : s.cancel = false) (idle : s.xstate = .idle) (at_ : s.sstate = .svcWrite)
    (service : s.svc = some v) (built : writeFrame s.cfg (cmdReg s.cfg v.kind) 1 [v.value] = .ok f)
    (ack : s.cfg.writeAckCount ≤ s.cfg.maxCount) : Issues s f s.cfg.writeAckCount := by
  obtain ⟨one, -, rfl⟩ := writeFrame_ok_iff.mp built
  exact ⟨live, idle, at_.trans_ne nofun, (issueStep_of_svcWrite live at_ service).trans (issueWrite_of_count one ack), ack, rfl⟩

/-- An exchange answered at its first attempt leads to the complete step on its words (R174, R190). -/
theorem runTurns_exchangeTurns {t : State} (issues : Issues s f n) (words : ws.length = n.toNat)
    (completes : completeOk (s.answered f n ws) = t) : runTurns (exchangeTurns f ws) s = .next t := by
  obtain ⟨live, idle, running, issue, count, header⟩ := issues
  have issued : turnStep .scheduler s = .next (s.accepted f (f.take 8) n) := (schedulerStep_of_idle idle running).trans issue
  have tx : (s.accepted f (f.take 8) n).xstate = .tx := by rw [State.accepted_of_live live]
  have sent : turnStep (.chanWrite true) (s.accepted f (f.take 8) n) =
      .next { s.accepted f (f.take 8) n with wire := s.wire ++ [f], xstate := .rx } :=
    congrArg _ (sendStep_true tx live)
  have accepted := parseResponse_responseOf header words []
  rw [List.append_nil] at accepted
  have decodes : decodeResp s.cfg (responseOf (f.take 8) ws) (f.take 8) n = .ok (.ok ws) :=
    decodeResp_ok_iff.mpr ⟨count, header, accepted⟩
  have received := (turnStep_response (responseOf (f.take 8) ws)
    { s.accepted f (f.take 8) n with wire := s.wire ++ [f], xstate := .rx }).trans (receiveStep_ok rfl decodes)
  have completed : turnStep .scheduler (s.answered f n ws) = .next t :=
    turnStep_scheduler_of_ok rfl rfl completes running
  rw [exchangeTurns, runTurns_cons_of_next issued, runTurns_cons_of_next sent, runTurns_cons_of_next received]
  exact runTurns_cons_of_next completed []

end

/-! ### The exchanges of a cycle -/

/-- Between two exchanges, without cancellation and under the parameters `c`. -/
structure Ready (c : Config) (s : State) : Prop where
  params : s.cfg = c
  live : s.cancel = false
  idle : s.xstate = .idle

/-- From `s` to `t` the frame `f` was written once and the facts `fs` came out, and the channel is free again. -/
structure Exchanged (c : Config) (f : List Byte) (fs : List Fact) (s t : State) : Prop extends Ready c t where
  wire : t.wire = s.wire ++ [f]
  out : t.out = s.out ++ fs

section
variable {c : Config} {s : State} {f : List Byte} {ws : List Word} {v : Service} (ready : Ready c s)
  (unbounded : c.fifoDepth = none)
include ready

/-- The write of the latched command (R193). -/
theorem runTurns_svcWrite (at_ : s.sstate = .svcWrite) (service : s.svc = some v)
    (built : writeFrame c (cmdReg c v.kind) 1 [v.value] = .ok f) (ack : c.writeAckCount ≤ c.maxCount)
    (words : ws.length = c.writeAckCount.toNat) :
    ∃ t, runTurns (exchangeTurns f ws) s = .next t ∧ Exchanged c f [] s t ∧
      t.sstate = .svcConfirm ∧ t.svc = some v ∧ t.pcmd = s.pcmd ∧ t.rr = s.rr := by
  obtain ⟨rfl, live, idle⟩ := ready
  have run := runTurns_exchangeTurns (.of_svcWrite live idle at_ service built ack) words
    (completeOk_svcWrite at_)
  exact ⟨_, run, ⟨⟨rfl, live, rfl⟩, rfl, (List.append_nil _).symm⟩, rfl, service, rfl, rfl⟩

include unbounded

/-- The telemetry read of a cycle with a dirty command (R192). -/
theorem runTurns_telem_take (at_ : s.sstate = .telem) (take : firstDirty s.pcmd = some v)
    (built : readFrame c c.telem.start c.telem.count = .ok f) (words : ws.length = c.telem.count.toNat) :
    ∃ t, runTurns (exchangeTurns f ws) s = .next t ∧ Exchanged c f (responseFacts c c.telem.start ws) s t ∧
      t.sstate = .svcWrite ∧ t.svc = some v ∧ t.pcmd = s.pcmd ∧ t.rr = s.rr := by
  obtain ⟨rfl, live, idle⟩ := ready
  have run := runTurns_exchangeTurns (.of_reads live idle (.inl ⟨at_, rfl⟩) built) words
    (completeOk_telem_take at_ (State.hasRoom_of_unbounded unbounded _) take)
  exact ⟨_, run, ⟨⟨rfl, live, rfl⟩, rfl, rfl⟩, rfl, rfl, rfl, rfl⟩

/-- The telemetry read of a cycle without a command (R192). -/
theorem runTurns_telem_none (at_ : s.sstate = .telem) (clean : firstDirty s.pcmd = none)
    (built : readFrame c c.telem.start c.telem.count = .ok f) (words : ws.length = c.telem.count.toNat) :
    ∃ t, runTurns (exchangeTurns f ws) s = .next t ∧ Exchanged c f (responseFacts c c.telem.start ws) s t ∧
      t.sstate = .diag ∧ t.svc = s.svc ∧ t.pcmd = s.pcmd ∧ t.rr = s.rr := by
  obtain ⟨rfl, live, idle⟩ := ready
  have run := runTurns_exchangeTurns (.of_reads live idle (.inl ⟨at_, rfl⟩) built) words
    (completeOk_telem_none at_ (State.hasRoom_of_unbounded unbounded _) clean)
  exact ⟨_, run, ⟨⟨rfl, live, rfl⟩, rfl, rfl⟩, rfl, rfl, rfl, rfl⟩

/-- The confirmation read of the latched command, and its retirement (R194). -/
theorem runTurns_svcConfirm (at_ : s.sstate = .svcConfirm) (service : s.svc = some v)
    (built : readFrame c c.confirm.start c.confirm.count = .ok f) (words : ws.length = c.confirm.count.toNat) :
    ∃ t, runTurns (exchangeTurns f ws) s = .next t ∧ Exchanged c f (responseFacts c c.confirm.start ws) s t ∧
      t.sstate = .diag ∧ t.svc = none ∧ RetiredIn v.kind v.gen s t ∧ t.rr = s.rr := by
  obtain ⟨rfl, live, idle⟩ := ready
  have run := runTurns_exchangeTurns (.of_reads live idle (.inr (.inl ⟨at_, rfl⟩)) built) words
    (completeOk_svcConfirm at_ (State.hasRoom_of_unbounded unbounded _) service)
  exact ⟨_, run, ⟨⟨rfl, live, rfl⟩, rfl, rfl⟩, rfl, rfl, rfl, rfl⟩

/-- The diagnostic read of the range that the counter chooses (R195). -/
theorem runTurns_diag {i : Fin 5} (at_ : s.sstate = .diag) (counter : s.rr = i)
    (built : readFrame c (c.diag.get i).start (c.diag.get i).count = .ok f) (words : ws.length = (c.diag.get i).count.toNat) :
    ∃ t, runTurns (exchangeTurns f ws) s = .next t ∧ Exchanged c f (responseFacts c (c.diag.get i).start ws) s t ∧
      t.sstate = .telem ∧ t.svc = s.svc ∧ t.pcmd = s.pcmd ∧ t.rr = nextRr i := by
  obtain ⟨rfl, live, idle⟩ := ready
  subst counter
  have run := runTurns_exchangeTurns (.of_reads live idle (.inr (.inr ⟨at_, rfl⟩)) built) words
    (completeOk_diag at_ (State.hasRoom_of_unbounded unbounded _))
  exact ⟨_, run, ⟨⟨rfl, live, rfl⟩, rfl, rfl⟩, rfl, rfl, rfl, rfl⟩

end

/-! ### The two cycles -/

/-- Settles O43: the telemetry exchange, then the diagnostic one. -/
theorem cycleWithoutCommandIsTwoReads : Obligations.CycleWithoutCommandIsTwoReads := by
  intro s w1 w2 f1 f2 at_ idle live clean unbounded r2 built1 built2 words1 words2
  obtain ⟨a, telem, xa, at_a, -, pcmd_a, rr_a⟩ :=
    runTurns_telem_none ⟨rfl, live, idle⟩ unbounded at_ clean built1 words1
  obtain ⟨t, diag, xt, at_t, -, pcmd_t, rr_t⟩ := runTurns_diag xa.toReady unbounded at_a rr_a built2 words2
  refine ⟨t, (runTurns_append telem).trans diag, ?_, at_t, xt.idle, by rw [rr_t, nextRr_val], ?_, pcmd_t.trans pcmd_a⟩
  · rw [xt.wire, xa.wire, List.append_assoc, List.singleton_append]
  · rw [xt.out, xa.out]

/-- Settles O44: the four exchanges of the cycle; the retired generation is the one that was taken, so the flag is cleared. -/
theorem cycleServicesOneCommand : Obligations.CycleServicesOneCommand := by
  intro s v w1 w2 w3 ack f1 fw f2 f3 at_ idle live take unbounded r3 built1 builtw ackFits built2 built3 words1 wordsw words2
    words3
  obtain ⟨a, telem, xa, at_a, svc_a, pcmd_a, rr_a⟩ :=
    runTurns_telem_take ⟨rfl, live, idle⟩ unbounded at_ take built1 words1
  obtain ⟨b, write, xb, at_b, svc_b, pcmd_b, rr_b⟩ := runTurns_svcWrite xa.toReady at_a svc_a builtw ackFits wordsw
  obtain ⟨d, confirm, xd, at_d, svc_d, retired, rr_d⟩ := runTurns_svcConfirm xb.toReady unbounded at_b svc_b built2 words2
  obtain ⟨t, diag, xt, at_t, svc_t, pcmd_t, rr_t⟩ :=
    runTurns_diag xd.toReady unbounded at_d (rr_d.trans (rr_b.trans rr_a)) built3 words3
  have run := (runTurns_append telem).trans ((runTurns_append write).trans ((runTurns_append confirm).trans diag))
  have pcmd : t.pcmd = s.pcmd.set v.kind ((s.pcmd.get v.kind).retired v.gen) := by
    rw [pcmd_t, retired, pcmd_b, pcmd_a]
  obtain ⟨-, -, gen⟩ := firstDirty_some take
  refine ⟨t, run, ?_, at_t, xt.idle, svc_t.trans svc_d, ?_, fun k other => ?_, by rw [rr_t, nextRr_val]⟩
  · rw [xt.wire, xd.wire, xb.wire, xa.wire]
    simp
  · rw [pcmd, CmdRegs.get_set_self, PendingCmd.retired_of_gen gen.symm]
  · rw [pcmd, CmdRegs.get_set_ne _ _ _ _ other]

end Sys2Proof.Machine
end

section
/-! Reset and hazards (R240, R242, R254): what the state after reset holds, the scheduler's first step from it, and a post that
overtakes the service of its own kind. -/

namespace Sys2Proof.Machine

/-! ### Reset (R240) -/

/-- Every element for which R240 gives a reset value has it (`xframe`, `xhdr` and `xcnt` have none, log 11). -/
def HasResetValues (s : State) : Prop :=
  s.sstate = .telem ∧ s.rr.val = 0 ∧ (∀ k, s.pcmd.get k = ⟨false, 0, 0⟩) ∧ (∀ i, s.pend.get i = none) ∧ s.crc = 0xFFFF ∧
    s.xstate = .idle ∧ s.xwords = [] ∧ s.svc = none ∧ s.cancel = false ∧ s.fault = false ∧ s.out = []

theorem hasResetValues_resetWith (c : Config) : HasResetValues (State.resetWith c) :=
  ⟨rfl, rfl, fun k => by cases k <;> rfl, pendEmpty_get, rfl, rfl, rfl, rfl, rfl, rfl, rfl⟩

/-- The reset input keeps only the parameters and the records that are no state element of R20. -/
theorem hasResetValues_pullReset (s : State) : HasResetValues s.pullReset := hasResetValues_resetWith s.cfg

/-- Settles O53: the reset input resets under the parameters of the state it finds. -/
theorem resetGivesTheSpecsValues : Obligations.ResetGivesTheSpecsValues :=
  ⟨fun c => ⟨hasResetValues_resetWith c, rfl⟩, hasResetValues_resetWith Config.ex,
    fun s => ⟨s.pullReset, rfl, hasResetValues_pullReset s, s.pullReset_cfg⟩⟩

/-- Settles O55: every clause is about an empty, zero or false element, or about the header of eight zero bytes. -/
theorem resetMeetsTheInvariant : Obligations.ResetMeetsTheInvariant := inv_resetWith

/-! ### The first step of the scheduler (R242) -/

/-- After reset the scheduler is in S_TELEM with no exchange and no cancellation, so it issues the read of TELEM_RANGE. -/
theorem issues_telem_resetWith {c : Config} {f : List Byte} (built : readFrame c c.telem.start c.telem.count = .ok f)
    (ts : List Turn) : Issues { State.resetWith c with turns := ts } f c.telem.count :=
  .of_reads rfl rfl (.inl ⟨rfl, rfl⟩) built

/-- Settles O54: the count is in its type, so there is a frame, and the scheduler's turn is the issue step of S_TELEM. -/
theorem firstStepAfterResetIssuesTelemetry : Obligations.FirstStepAfterResetIssuesTelemetry := by
  intro c ts fits
  have built := readFrame_ok_iff (reg := c.telem.start).mpr ⟨fits, rfl⟩
  obtain ⟨live, idle, running, issue, -, -⟩ := issues_telem_resetWith built ts
  have first : step { State.resetWith c with turns := .scheduler :: ts } = _ := (schedulerStep_of_idle idle running).trans issue
  rw [State.accepted_of_live live] at first
  exact ⟨_, _, built, first, rfl, rfl, rfl, rfl, rfl, rfl⟩

/-! ### A post during the service of its kind (R254) -/

/-- A retire of a generation that is not the register's leaves the register as it is and answers KEPT (R199). -/
theorem exec_cmdRetire_of_other_gen {k : CmdKind} {g : Nat} {s : State} (other : (s.pcmd.get k).gen ≠ g) :
    ∃ t, exec (.cmdRetire k g) s = .next t ∧ t.pcmd.get k = s.pcmd.get k ∧ t.result = .retired .kept := by
  refine ⟨_, exec_cmdRetire k g s, ?_, by rw [if_neg other]; rfl⟩
  exact (CmdRegs.get_set_self ..).trans (PendingCmd.retired_of_other_gen other)

/-- Under the invariant a post during the service of its kind moves the register past the latched generation (R254). -/
theorem Inv.posted_gen_ne_latched {s : State} {v : Service} (inv : Inv s) (service : s.svc = some v) (w : Word) :
    ((s.pcmd.get v.kind).posted w).gen ≠ v.gen :=
  (Nat.lt_succ_of_le (inv.latched v service).1).ne'

/-- Settles O51: the post raises the generation past the latched one, so the retire finds another and keeps the command. -/
theorem postDuringServiceSurvivesTheRetire : Obligations.PostDuringServiceSurvivesTheRetire := by
  intro s t v topic payload w inv service routed valid run
  have post := exec_cmdPost_of_valid routed valid
  have posted : ((s.postCommand v.kind w).withResult (.posted .accepted)).pcmd.get v.kind = (s.pcmd.get v.kind).posted w :=
    CmdRegs.get_set_self ..
  obtain ⟨u, retire, kept, answer⟩ := exec_cmdRetire_of_other_gen (posted ▸ inv.posted_gen_ne_latched service w)
  rw [execAll_cons_of_next post, execAll_cons_of_next retire] at run
  cases run
  exact ⟨kept.trans posted, answer⟩

end Sys2Proof.Machine
end
